-- ==== Sys2Proof/Config.lean ====
section
/-! DEFINITION. What the hardware fixes for a whole run: the parameters of 00_scope.md rule R7.

Two parameters are open (92_eei_decisions.md, "Open parameters") and are no constant here: SEG_TABLE is the
configuration field `glyphs` of the state (log entry 5), SEL_ACTIVE_LOW is an argument of the pin function
(log entry 6). -/

namespace Sys2Proof.Config

/-- DISPLAY_COUNT (rule R7): the number of digits and of digit-select lines. -/
abbrev displayCount : Nat := 4

/-- DECIMAL_PRECISION (rule R7): digits after the decimal point. -/
def decimalPrecision : Nat := 3

/-- DP_POS = DECIMAL_PRECISION (rule R7, 90_conflicts.md C4): the cursor value at which the point may light. -/
def dpPos : Nat := decimalPrecision

/-- SCAN_PERIOD_MS (rule R7): the reset value of the period register. -/
def scanPeriodMs : BitVec 16 := 30

/-- BLANK (rule R7): the table index of the all-off glyph, and the largest value an output sequence accepts. -/
def blank : Nat := 16

/-- SEG_ACTIVE_LOW (rules R7, R13; 92_eei_decisions.md D6): the polarity of the 8 segment lines. -/
def segActiveLow : Bool := true

/-- SEG_TABLE as a model takes it (40_encoder.md rule R62): the 7 segment bits, a in bit 0 to g in bit 6, of entries
0..15. Entry 16 and bit 7 of every entry are fixed by rules R62 and R64, so they are no parameter. -/
abbrev Glyphs := Vector (BitVec 7) 16

end Sys2Proof.Config
end

