-- ==== Sys2Proof/Word.lean ====
section
/-! DEFINITION. The values that pass over the block's ports, and the names of the decoder's and the operations'
outcomes. -/

namespace Sys2Proof

/-- A host command word (30_encoding.md rule R46), also the width of the TICK event code (rule R51). -/
abbrev Word := BitVec 32

/-- A display value: VALUE_WIDTH = 16 bits, unsigned (00_scope.md rule R7). -/
abbrev Value := BitVec 16

/-- A digit value on the ENCODE port or in DIGIT's VAL field: DIGIT_IN_WIDTH = 5 bits (00_scope.md rule R7). -/
abbrev DigitIn := BitVec 5

/-- The target of an output sequence (00_scope.md rule R11): a tagged value, never a signed index. -/
inductive Target where
  /-- One digit position, IDX_WIDTH = 4 bits. -/
  | single (i : BitVec 4)
  /-- The source's SENTINEL_ALL. -/
  | all
  deriving DecidableEq, Repr

/-- The reasons of a refusal (10_state.md rule R30, 60_exceptions.md rule R90 codes X1 to X5). -/
inductive RefusalReason where
  /-- X1: OP in 0x6..0xF. -/
  | reservedOpcode
  /-- X2: OP = 0x1 on the host port. -/
  | hostTick
  /-- X3: a reserved bit of the format is 1. -/
  | reservedBits
  /-- X4: DIGIT with ALL = 1 and IDX not 0. -/
  | allWithIndex
  /-- X5: START with PERIOD = 0. -/
  | zeroPeriod
  deriving DecidableEq, Repr

/-- The reasons of a fault (10_state.md rule R29): there is one. -/
inductive FaultReason where
  /-- F1: DIGIT while the scan timer is armed (60_exceptions.md rule R94). -/
  | concurrentOutputDrive
  deriving DecidableEq, Repr

/-- One thing the outside does to the block (log entry 1). -/
inductive Input where
  /-- HOST issues a command word (30_encoding.md rule R46). -/
  | host (cmd : Word)
  /-- The scan timer expires (60_exceptions.md rule R91). -/
  | scan
  /-- The environment drives `enc_in[4:0]` (30_encoding.md rule R53). -/
  | query (d : DigitIn)
  /-- The reset input is asserted (70_reset_and_hazards.md rule R106). -/
  | reset
  deriving DecidableEq, Repr

end Sys2Proof
end

