-- ==== Sys2Proof/Machine/Operands.lean ====
section
/-! DEFINITION. The values TICK computes from the display value and the cursor (41_scanner.md rules R66 to R68). They
take their parameters as arguments, so the configurations of 95_test_vectors.md V3 and V4 can be evaluated too. -/

namespace Sys2Proof.Machine

/-- The decimal digit of `v` at position `c` (rule R66). -/
def digitAt (v : Value) (c : Nat) : Nat := v.toNat / 10 ^ c % 10

/-- The decimal-point enable at cursor `c` for a point at `dpPos` (rule R67). -/
def dpEnable (dpPos c : Nat) : Bool := c == dpPos && dpPos != 0

/-- The next cursor on a display of `n` digits (rule R68, 00_scope.md rule R10). -/
def nextCursor (n c : Nat) : Nat := if c = 0 then n - 1 else c - 1

end Sys2Proof.Machine
end

