-- ==== Sys2Proof/Machine/Glyphs.lean ====
section
/-! DEFINITION. The SegmentEncoder (40_encoder.md): the glyph table and the digit-to-segment lookup, a pure function of
the table and the digit. -/

namespace Sys2Proof.Machine

/-- The default SEG_TABLE, entries 0..15 (40_encoder.md rule R62; UNVERIFIED by the source, log entry 5). -/
def defaultGlyphs : Config.Glyphs :=
  #v[0x3F, 0x06, 0x5B, 0x4F, 0x66, 0x6D, 0x7D, 0x07, 0x7F, 0x6F, 0x77, 0x7C, 0x39, 0x5E, 0x79, 0x71]

/-- SEG_TABLE[i] for i in 0..16 (rules R52, R62, R64): bit 7 is 0, and entry 16 is blank. -/
def segTable (glyphs : Config.Glyphs) (i : Nat) : BitVec 8 :=
  if h : i < 16 then glyphs[i].setWidth 8 else 0x00#8

/-- ENCODE (rule R61), with inputs above 16 blank (rule R63). -/
def encodeDigit (glyphs : Config.Glyphs) (d : DigitIn) : BitVec 8 :=
  if d.toNat ≤ Config.blank then segTable glyphs d.toNat else segTable glyphs Config.blank

/-- Bits 6..0 of the pattern, the only ones an output sequence uses (rule R64). -/
def segmentsOf (glyphs : Config.Glyphs) (d : DigitIn) : BitVec 7 :=
  (encodeDigit glyphs d).extractLsb' 0 7

end Sys2Proof.Machine
end

