-- ==== Sys2Proof/Machine/State.lean ====
section
/-! DEFINITION. The state record (10_state.md rule R17), the fault and refusal outcomes of a step, and the state after
reset (10_state.md rule R33). -/

namespace Sys2Proof.Machine

/-- The output latches (10_state.md rules R22 to R24), at the logical level: 1 is visible or selected. -/
structure Latches where
  /-- Segments a (bit 0) to g (bit 6). -/
  seg : BitVec 7
  /-- The decimal point. -/
  dp : Bool
  /-- The digit-select lines; position 0 is the least significant digit. -/
  sel : BitVec 4
  deriving DecidableEq, Repr

/-- The latches after reset (10_state.md rule R33): dark, no digit selected. -/
def Latches.reset : Latches := { seg := 0, dp := false, sel := 0 }

/-- An output event (41_scanner.md rule R71). -/
inductive OutputEvent where
  | deselectAll
  | setSeg (p : BitVec 7)
  | setDp (b : Bool)
  | select (k : Fin 4)
  | selectAll
  deriving DecidableEq, Repr

/-- The two agents (00_scope.md rule R5). -/
inductive Agent where
  | scan
  | host
  deriving DecidableEq, Repr

/-- The operations that emit events (10_state.md rule R17, writers of the output lines). -/
inductive Operation where
  | tick
  | digit
  deriving DecidableEq, Repr

/-- One entry of the event list (10_state.md rule R31): the event with the agent and the operation that emitted it. -/
structure EventRecord where
  agent : Agent
  operation : Operation
  event : OutputEvent
  deriving DecidableEq, Repr

/-- The whole state: the block's record of rule R17, then the configuration and the outside world as plain data. -/
structure State where
  /-- DigitIndexCursor (R19). -/
  cursor : BitVec 2
  /-- The scan-timer arm bit (R20). -/
  scanEn : Bool
  /-- The period register, in milliseconds (R21). -/
  periodMs : BitVec 16
  /-- The output latches (R22 to R24). -/
  out : Latches
  /-- The two banks of the hand-off cell (R26). -/
  bank : Vector Value 2
  /-- The index of the published bank (R27). -/
  pub : Fin 2
  /-- The sticky fault mark, with the command word (R29, 60_exceptions.md R94). -/
  fault : Option (FaultReason × Word)
  /-- The sticky refusal mark, with the command word (R30, 60_exceptions.md R95). -/
  refused : Option (RefusalReason × Word)
  /-- The output events emitted since reset, oldest first (R31). -/
  events : List EventRecord
  /-- SEG_TABLE: configuration, written by no operation (R28, 40_encoder.md R62; log entry 5). -/
  glyphs : Config.Glyphs
  /-- What the environment drives on `enc_in[4:0]` (30_encoding.md R53; the model's own field, log entry 8). -/
  encIn : DigitIn
  /-- What the outside does next, in order of arrival (60_exceptions.md R96; the model's own field, log entry 1). -/
  inputs : List Input
  deriving DecidableEq, Repr

/-- The faults of a step. -/
inductive Fault where
  /-- The state carries a fault mark, so neither agent has a step (60_exceptions.md rules R94, R105). Raised by `fetch`.
  Safe: the run stops where the spec says it stops. -/
  | faulted (r : FaultReason) (cmd : Word)
  deriving DecidableEq, Repr

/-- The refusals of a step. -/
inductive Refusal where
  /-- An instruction that has no meaning yet: only a rejected arm of `exec` may answer so, and none does. Safe. -/
  | notModelled (mnemonic : String)
  /-- The state carries a refusal mark, so neither agent has a step (60_exceptions.md rules R95, R105). Raised by
  `fetch`. Safe: the run stops where the spec says it stops. -/
  | refusedWord (r : RefusalReason) (cmd : Word)
  deriving DecidableEq, Repr

/-- The state right after reset (10_state.md rule R33), with the default glyph table (log entry 5), nothing arriving from
outside (log entry 1) and 0 on the ENCODE input (log entry 8). -/
def State.reset : State where
  cursor := 3
  scanEn := false
  periodMs := Config.scanPeriodMs
  out := Latches.reset
  bank := #v[0, 0]
  pub := 0
  fault := none
  refused := none
  events := []
  glyphs := defaultGlyphs
  encIn := 0
  inputs := []

end Sys2Proof.Machine
end

