-- ==== Sys2Proof/Machine/Ops.lean ====
section
/-! DEFINITION. The named operations over the state that the meanings share: the fault and refusal marks, reset, the
output sequence, the scan timer, the cursor and the hand-off cell. -/

namespace Sys2Proof.Machine

/-! ## Marks and reset -/

/-- `raise Fault(r)` (60_exceptions.md rule R94): the mark is set once, and nothing else changes. -/
def State.raiseFault (s : State) (r : FaultReason) (cmd : Word) : State :=
  { s with fault := s.fault <|> some (r, cmd) }

/-- `refuse(r)` (60_exceptions.md rule R95): the mark is set once, and nothing else changes. -/
def State.refuse (s : State) (r : RefusalReason) (cmd : Word) : State :=
  { s with refused := s.refused <|> some (r, cmd) }

/-- The reset input (70_reset_and_hazards.md rule R106): every field of the block at its reset value of 10_state.md rule
R33, from any state; the configuration and the outside world are not the block's to reset (log entry 9). -/
def State.applyReset (s : State) : State :=
  { State.reset with glyphs := s.glyphs, encIn := s.encIn, inputs := s.inputs }

/-- The input at the front has arrived; `rest` still waits. -/
def State.consume (s : State) (rest : List Input) : State := { s with inputs := rest }

/-! ## Output lines -/

/-- What an output event does to the latches (41_scanner.md rule R71). -/
def Latches.apply (l : Latches) : OutputEvent → Latches
  | .deselectAll => { l with sel := 0 }
  | .setSeg p => { l with seg := p }
  | .setDp b => { l with dp := b }
  | .select k => { l with sel := l.sel ||| (1#4 <<< k.val) }
  | .selectAll => { l with sel := BitVec.allOnes 4 }

/-- `Emit(e)` (41_scanner.md rule R71): the event takes effect and is recorded. -/
def State.emit (s : State) (a : Agent) (op : Operation) (e : OutputEvent) : State :=
  { s with out := s.out.apply e, events := s.events ++ [⟨a, op, e⟩] }

/-- The last event of an output sequence (41_scanner.md rules R70, R79). -/
def State.emitSelect (s : State) (a : Agent) (op : Operation) : Target → State
  | .all => s.emit a op .selectAll
  | .single i => if h : i.toNat < Config.displayCount then s.emit a op (.select ⟨i.toNat, h⟩) else s

/-- DisplaySeq (41_scanner.md rule R70), performed by operation `op` of agent `a`. -/
def State.displaySeq (s : State) (a : Agent) (op : Operation) (value : DigitIn) (target : Target) (dpEn : Bool) :
    State :=
  if Config.blank < value.toNat then s
  else
    ((s.emit a op .deselectAll).emit a op (.setSeg (segmentsOf s.glyphs value))).emit a op (.setDp dpEn)
      |>.emitSelect a op target

/-! ## Scan timer and cursor -/

/-- START's effect (41_scanner.md rule R73). -/
def State.arm (s : State) (period : BitVec 16) : State := { s with periodMs := period, scanEn := true }

/-- STOP's effect (41_scanner.md rule R74). -/
def State.disarm (s : State) : State := { s with scanEn := false }

/-- Step 5 of TICK (41_scanner.md rule R69). -/
def State.advanceCursor (s : State) : State :=
  { s with cursor := BitVec.ofNat 2 (nextCursor Config.displayCount s.cursor.toNat) }

/-! ## Hand-off cell -/

/-- HandoffRead (42_handoff.md rule R82), which is also SDV (10_state.md rule R25). -/
def State.sdv (s : State) : Value := s.bank[s.pub]

/-- The index of the back bank, `1 - pub` (10_state.md rule R26). -/
def State.back (s : State) : Fin 2 := 1 - s.pub

/-- HandoffWrite (42_handoff.md rule R83): fill the back bank, then flip `pub`, in one atomic step. -/
def State.handoffWrite (s : State) (data : Value) : State :=
  { s with bank := s.bank.set s.back data, pub := s.back }

/-! ## ENCODE port -/

/-- The environment drives `enc_in` (30_encoding.md rule R53). -/
def State.driveEncIn (s : State) (d : DigitIn) : State := { s with encIn := d }

/-- `enc_out[7:0]`: combinational, so it is computed and not stored (30_encoding.md rule R53). -/
def State.encOut (s : State) : BitVec 8 := encodeDigit s.glyphs s.encIn

end Sys2Proof.Machine
end

