-- ==== Sys2Proof/Machine/Encoder.lean ====
section
/-! DEFINITION. The meaning of ENCODE (40_encoder.md). -/

namespace Sys2Proof.Machine

/-- ENCODE (rules R61, R64): the environment drives `enc_in`; `State.encOut` answers, and no state of the block is
written. -/
def execEncode (d : DigitIn) (s : State) : Host.Outcome State Fault Refusal :=
  .next (s.driveEncIn d)

end Sys2Proof.Machine
end

