-- ==== Sys2Proof/Machine/Handoff.lean ====
section
/-! DEFINITION. The meanings of PUBLISH and NOP (42_handoff.md). -/

namespace Sys2Proof.Machine

/-- PUBLISH (rule R83): the atomic whole-value replace, without a clamp (rule R87). -/
def execPublish (data : Value) (s : State) : Host.Outcome State Fault Refusal := .next (s.handoffWrite data)

/-- NOP (rule R88). -/
def execNop (s : State) : Host.Outcome State Fault Refusal := .next s

end Sys2Proof.Machine
end

