-- ==== Sys2Proof/Syntax.lean ====
section
/-! DEFINITION. The instructions: one constructor per row of spec/opcode_table.json. -/

namespace Sys2Proof

/-- The operations of the block (30_encoding.md rule R48, and the ENCODE port of rule R53), with the operands that
rule R54 assembles. -/
inductive Instr where
  /-- ENCODE (40_encoder.md rule R61): a query of the combinational port with `enc_in = d`. -/
  | encode (d : DigitIn)
  /-- NOP (42_handoff.md rule R88). -/
  | nop
  /-- TICK (41_scanner.md rule R69): the SCAN agent's operation, never a host command. -/
  | tick
  /-- DIGIT (41_scanner.md rule R72): VAL, the target made of ALL and IDX, and DP. -/
  | digit (value : DigitIn) (target : Target) (dpEn : Bool)
  /-- START (41_scanner.md rule R73): PERIOD in milliseconds. -/
  | start (period : BitVec 16)
  /-- STOP (41_scanner.md rule R74). -/
  | stop
  /-- PUBLISH (42_handoff.md rule R83): the new display value. -/
  | publish (data : Value)
  deriving DecidableEq, Repr

end Sys2Proof
end

