-- ==== Sys2Proof/WellFormed.lean ====
section
/-! DEFINITION. The instructions an encoding exists for. The operand types already exclude every other ill-formed
operand: a target is tagged (00_scope.md rule R11), so no term stands for a DIGIT with ALL and an index. -/

namespace Sys2Proof

/-- START's PERIOD is 1..65535 (41_scanner.md rule R73); every other operand is legal at every value (30_encoding.md
rule R58). -/
def Instr.wf : Instr → Bool
  | .encode _ => true
  | .nop => true
  | .tick => true
  | .digit _ _ _ => true
  | .start period => period != 0
  | .stop => true
  | .publish _ => true

end Sys2Proof
end

