-- ==== Sys2Proof/Decode.lean ====
section
/-! DEFINITION. The decoder of the host command port (30_encoding.md rules R47 to R58), total on every 32-bit word and
rejecting by name; the SCAN event code; the ENCODE port; and the encoder, from the same tables. -/

namespace Sys2Proof

/-- What a word stands for: an instruction, or the reason it is refused for. -/
inductive Decoded where
  | command (i : Instr)
  | refuse (r : RefusalReason)
  deriving DecidableEq, Repr

/-! ## The fields of a command word (rules R47, R49, R50) -/

/-- Bits [31:28]. -/
def opField (cmd : Word) : BitVec 4 := cmd.extractLsb' 28 4

/-- Bits [20:16] of format D. -/
def valField (cmd : Word) : DigitIn := cmd.extractLsb' 16 5

/-- Bit [15] of format D. -/
def dpField (cmd : Word) : Bool := cmd.getLsbD 15

/-- Bit [14] of format D. -/
def allField (cmd : Word) : Bool := cmd.getLsbD 14

/-- Bits [3:0] of format D. -/
def idxField (cmd : Word) : BitVec 4 := cmd.extractLsb' 0 4

/-- Bits [15:0] of format P. -/
def immField (cmd : Word) : BitVec 16 := cmd.extractLsb' 0 16

/-- Every reserved bit of format Z, [27:0], is 0 (rule R51). -/
def formatZClear (cmd : Word) : Bool := cmd.extractLsb' 0 28 == 0

/-- Every reserved bit of format D, [27:21] and [13:4], is 0 (rule R49). -/
def formatDClear (cmd : Word) : Bool := cmd.extractLsb' 21 7 == 0 && cmd.extractLsb' 4 10 == 0

/-- Every reserved bit of format P, [27:16], is 0 (rule R50). -/
def formatPClear (cmd : Word) : Bool := cmd.extractLsb' 16 12 == 0

/-! ## The decoders -/

/-- DIGIT's target (rule R54). -/
def targetOf (cmd : Word) : Target := if allField cmd then .all else .single (idxField cmd)

/-- OP = 0x2 (rules R49, R56, R57). -/
def decodeDigit (cmd : Word) : Decoded :=
  if !formatDClear cmd then .refuse .reservedBits
  else if allField cmd && idxField cmd != 0 then .refuse .allWithIndex
  else .command (.digit (valField cmd) (targetOf cmd) (dpField cmd))

/-- OP = 0x3 (rules R50, R56, R57). -/
def decodeStart (cmd : Word) : Decoded :=
  if !formatPClear cmd then .refuse .reservedBits
  else if immField cmd = 0 then .refuse .zeroPeriod
  else .command (.start (immField cmd))

/-- OP = 0x5 (rules R50, R56). -/
def decodePublish (cmd : Word) : Decoded :=
  if !formatPClear cmd then .refuse .reservedBits else .command (.publish (immField cmd))

/-- OP = 0x0 and OP = 0x4 (rules R51, R56). -/
def decodeBare (cmd : Word) (i : Instr) : Decoded :=
  if !formatZClear cmd then .refuse .reservedBits else .command i

/-- The decoder of the host command port, in the order of rule R57. -/
def decodeHost (cmd : Word) : Decoded :=
  if 6 ≤ (opField cmd).toNat then .refuse .reservedOpcode
  else if opField cmd = 1 then .refuse .hostTick
  else if opField cmd = 0 then decodeBare cmd .nop
  else if opField cmd = 4 then decodeBare cmd .stop
  else if opField cmd = 2 then decodeDigit cmd
  else if opField cmd = 3 then decodeStart cmd
  else decodePublish cmd

/-- The TICK event code (rule R51). -/
def tickCode : Word := 0x10000000

/-- The SCAN event codes (rule R48): there is one. -/
def decodeEvent (code : Word) : Option Instr := if code = tickCode then some .tick else none

/-- The ENCODE port accepts every 5-bit input (rule R53). -/
def decodeQuery (d : DigitIn) : Instr := .encode d

/-! ## The opcode table's view -/

/-- The input that carries the bits of a row of spec/opcode_table.json (log entry 16): at most 8 bits stand for the
5-bit ENCODE port, 32 bits are the SCAN event code or else a host command word. -/
def tableInput (nbits w : Nat) : Option Input :=
  if nbits ≤ 8 then if w < 32 then some (.query (BitVec.ofNat 5 w)) else none
  else if nbits = 32 ∧ w < 2 ^ 32 then
    if BitVec.ofNat 32 w = tickCode then some .scan else some (.host (BitVec.ofNat 32 w))
  else none

/-- The instruction an input asks the block for, if the decoders accept it. -/
def inputInstr : Input → Option Instr
  | .host cmd => match decodeHost cmd with
    | .command i => some i
    | .refuse _ => none
  | .scan => decodeEvent tickCode
  | .query d => some (decodeQuery d)
  | .reset => none

/-- The instruction read from a table row's bits, bit 0 least significant. -/
def decodeTableWord (nbits w : Nat) : Option Instr := (tableInput nbits w).bind inputInstr

/-! ## The encoder -/

/-- ALL and IDX of a target (rules R49, R54): ALL = 1 has IDX = 0. -/
def targetBits : Target → BitVec 1 × BitVec 4
  | .single i => (0, i)
  | .all => (1, 0)

/-- A field of a word: `v` placed with its bit 0 at bit `lo`. -/
def place {w : Nat} (v : BitVec w) (lo : Nat) : Word := v.setWidth 32 <<< lo

/-- The bits of an instruction (rules R49 to R51, R53, in the form of rule R59); ENCODE's 5 bits are zero-extended. -/
def encodeWord : Instr → Word
  | .encode d => place d 0
  | .nop => 0x00000000
  | .tick => tickCode
  | .digit value target dpEn =>
    0x20000000 ||| place value 16 ||| place (BitVec.ofBool dpEn) 15 ||| place (targetBits target).1 14 |||
      place (targetBits target).2 0
  | .start period => 0x30000000 ||| place period 0
  | .stop => 0x40000000
  | .publish data => 0x50000000 ||| place data 0

/-- How many bits the table gives the instruction's row, in whole bytes. -/
def encodeBits : Instr → Nat
  | .encode _ => 8
  | .nop => 32
  | .tick => 32
  | .digit _ _ _ => 32
  | .start _ => 32
  | .stop => 32
  | .publish _ => 32

/-- The port an instruction arrives on, with its bits there: what `inputInstr` undoes. -/
def encode (i : Instr) : Input :=
  match i with
  | .encode d => .query d
  | .tick => .scan
  | .nop => .host (encodeWord .nop)
  | .digit value target dpEn => .host (encodeWord (.digit value target dpEn))
  | .start period => .host (encodeWord (.start period))
  | .stop => .host (encodeWord .stop)
  | .publish data => .host (encodeWord (.publish data))

/-! ## Pseudo-instructions -/

/-- The assembler's pseudo-instructions (rule R60). -/
inductive Pseudo where
  /-- `BLANK <idx>` -/
  | blankAt (idx : BitVec 4)
  /-- `BLANK ALL` -/
  | blankAll
  /-- `LAMPTEST` -/
  | lampTest
  /-- `RESTART` -/
  | restart
  deriving DecidableEq, Repr

/-- The one command a pseudo-instruction stands for (rule R60). -/
def expandPseudo : Pseudo → Instr
  | .blankAt idx => .digit 16 (.single idx) false
  | .blankAll => .digit 16 .all false
  | .lampTest => .digit 8 .all true
  | .restart => .start Config.scanPeriodMs

end Sys2Proof
end

