-- ==== Sys2Proof/Machine/Scanner.lean ====
section
/-! DEFINITION. The meanings of TICK, DIGIT, START and STOP (41_scanner.md). Each is the operation's own pseudocode; when
an agent may take it is decided in Machine/Fetch.lean (log entry 4). -/

namespace Sys2Proof.Machine

/-- TICK (rule R69): one atomic read, the digit under the cursor, its decimal point, the output sequence, the cursor. -/
def execTick (s : State) : Host.Outcome State Fault Refusal :=
  let v := s.sdv
  let c := s.cursor.toNat
  let d := digitAt v c
  let e := dpEnable Config.dpPos c
  .next (s.displaySeq .scan .tick (BitVec.ofNat 5 d) (.single (BitVec.ofNat 4 c)) e).advanceCursor

/-- DIGIT (rule R72): a fault while the scan timer is armed, whatever VAL is; else the output sequence. The mark records
the command word (60_exceptions.md rule R94), which the encoder gives back (log entry 15). -/
def execDigit (value : DigitIn) (target : Target) (dpEn : Bool) (s : State) : Host.Outcome State Fault Refusal :=
  if s.scanEn then .next (s.raiseFault .concurrentOutputDrive (encodeWord (.digit value target dpEn)))
  else .next (s.displaySeq .host .digit value target dpEn)

/-- START (rule R73). PERIOD = 0 is refused (30_encoding.md rule R57); the decoder already refuses its word, so that
branch is met only by a term no word decodes to. -/
def execStart (period : BitVec 16) (s : State) : Host.Outcome State Fault Refusal :=
  if period = 0 then .next (s.refuse .zeroPeriod (encodeWord (.start period))) else .next (s.arm period)

/-- STOP (rule R74). -/
def execStop (s : State) : Host.Outcome State Fault Refusal := .next s.disarm

end Sys2Proof.Machine
end

