-- ==== Sys2Proof/Machine/Dispatch.lean ====
section
/-! DEFINITION. One arm per constructor of Instr, each a direct call of its meaning. -/

namespace Sys2Proof.Machine

def exec (i : Instr) (s : State) : Host.Outcome State Fault Refusal :=
  match i with
  | .encode d => Sys2Proof.Machine.execEncode d s
  | .nop => Sys2Proof.Machine.execNop s
  | .tick => Sys2Proof.Machine.execTick s
  | .digit value target dpEn => Sys2Proof.Machine.execDigit value target dpEn s
  | .start period => Sys2Proof.Machine.execStart period s
  | .stop => Sys2Proof.Machine.execStop s
  | .publish data => Sys2Proof.Machine.execPublish data s

end Sys2Proof.Machine
end

