-- ==== Sys2Proof/Machine/Flags.lean ====
section
/-! DEFINITION. The condition the scheduler reads beside `scanEn`. The block has no condition codes and no status flag that an
operation reads (10_state.md rule R32), so no flag is computed here. -/

namespace Sys2Proof.Machine

/-- A fault or a refusal is recorded: the state is quiescent (60_exceptions.md rules R94, R95, R105). -/
def State.marked (s : State) : Bool := s.fault.isSome || s.refused.isSome

end Sys2Proof.Machine
end

