-- ==== Sys2Proof/Machine/Fetch.lean ====
section
/-! DEFINITION. Which operation the next step performs (60_exceptions.md rules R92, R95, R96, R105): the scheduler and the
host port, in place of an instruction fetch, which the block has not (20_memory.md rule R44). -/

namespace Sys2Proof.Machine

/-- What the scheduler finds: an instruction to run from a state, or a step that ends without one. -/
inductive Fetched where
  | run (i : Instr) (s : State)
  | done (o : Host.Outcome State Fault Refusal)

/-- The end of a run at a marked state (60_exceptions.md rules R94, R95): the fault mark is reported before the refusal
mark (log entry 18); at an unmarked state nothing stops. -/
def stopOutcome (s : State) : Host.Outcome State Fault Refusal :=
  match s.fault, s.refused with
  | some (r, cmd), _ => .fault (.faulted r cmd)
  | none, some (r, cmd) => .refused (.refusedWord r cmd)
  | none, none => .next s

/-- An agent's step: nothing at a marked state (rule R105). -/
def whenLive (s : State) (k : Fetched) : Fetched := if s.marked then .done (stopOutcome s) else k

/-- A command word on the host port: the decoded command, or the refusal mark (30_encoding.md rules R55 to R57). -/
def hostWord (cmd : Word) (s : State) : Fetched :=
  match decodeHost cmd with
  | .command i => .run i s
  | .refuse r => .done (.next (s.refuse r cmd))

/-- An expiry of the scan timer: a TICK while armed, and nothing while disarmed (rule R92; log entry 14). -/
def scanExpiry (s : State) : Fetched := if s.scanEn then .run .tick s else .done (.next s)

/-- No input waits: a TICK while armed (the fairness of rule R105), else the idle host port, which reads as NOP
(42_handoff.md rule R88). -/
def idlePort (s : State) : Fetched := if s.scanEn then .run .tick s else .run .nop s

/-- What the next step performs. The ENCODE port and the reset input belong to no agent, so a mark does not stop them
(log entries 8 and 9). -/
def fetch (s : State) : Fetched :=
  match s.inputs with
  | [] => whenLive s (idlePort s)
  | .host cmd :: rest => whenLive s (hostWord cmd (s.consume rest))
  | .scan :: rest => whenLive s (scanExpiry (s.consume rest))
  | .query d :: rest => .run (decodeQuery d) (s.consume rest)
  | .reset :: rest => .done (.next (s.consume rest).applyReset)

/-- `s` with `x` arriving before everything else and accepted by the next step: an expiry needs the timer armed, and an
agent's step needs an unmarked state (rule R92; log entry 2). -/
def State.withInput (s : State) (x : Input) : State :=
  { s with
    inputs := x :: s.inputs
    scanEn := if x = .scan then true else s.scanEn
    fault := none
    refused := none }

end Sys2Proof.Machine
end

