-- ==== Sys2Proof/Machine/Step.lean ====
section
/-! DEFINITION. One step of the machine: the operation the scheduler picks, run by `exec`. -/

namespace Sys2Proof.Machine

/-- One atomic step (00_scope.md rules R6, R14). -/
def step (s : State) : Host.Outcome State Fault Refusal :=
  match fetch s with
  | .run i s' => exec i s'
  | .done o => o

/-- `s` with the instruction whose table bits are `w` arriving next (log entry 2). -/
def State.withFetchWord (s : State) (nbits w : Nat) : State :=
  match tableInput nbits w with
  | some x => s.withInput x
  | none => s

end Sys2Proof.Machine
end

