-- ==== Sys2Proof/Machine/Pins.lean ====
section
/-! DEFINITION. The physical level of the output pins (00_scope.md rule R13): logical XOR the polarity. No operation reads
a pin. SEL_ACTIVE_LOW is open, so it is an argument (log entry 6). -/

namespace Sys2Proof.Machine

/-- The physical level of a line of the given polarity. -/
def pinLevel (activeLow logical : Bool) : Bool := logical ^^ activeLow

/-- The pin of segment `k`: 0 is a, 6 is g. -/
def State.segPin (s : State) (k : Fin 7) : Bool := pinLevel Config.segActiveLow (s.out.seg.getLsbD k)

/-- The pin of the decimal point. -/
def State.dpPin (s : State) : Bool := pinLevel Config.segActiveLow s.out.dp

/-- The pin of digit-select line `k`, on a board of the given select polarity. -/
def State.selPin (s : State) (selActiveLow : Bool) (k : Fin 4) : Bool :=
  pinLevel selActiveLow (s.out.sel.getLsbD k)

end Sys2Proof.Machine
end

