-- ==== Sys2Proof/Safety.lean ====
section
/-! DEFINITION. The terms claims about runs are stated in: runs, event boundaries, the multiplexing and ghosting
invariants (41_scanner.md rule R75, 70_reset_and_hazards.md rule R110), settled states (rule R119) and states that differ
only in what the hand-off cell hides (42_handoff.md rule R84). -/

namespace Sys2Proof.Machine

/-- `n` steps, stopping at the first fault or refusal. -/
def runN : Nat → State → Host.Outcome State Fault Refusal
  | 0, s => .next s
  | n + 1, s =>
    match step s with
    | .next t => runN n t
    | .fault r => .fault r
    | .refused r => .refused r

/-! ## Event boundaries -/

/-- The latches after a list of events (41_scanner.md rule R71: the state after each event is observable). -/
def replay (l : Latches) (es : List EventRecord) : Latches := es.foldl (fun m r => m.apply r.event) l

/-- Whether an event boundary is in diagnostic display after `e`, given whether the one before was (rule R75): a
SelectAll enters it; a Select or a DeselectAll leaves it. -/
def diagnosticAfter (before : Bool) : OutputEvent → Bool
  | .selectAll => true
  | .select _ => false
  | .deselectAll => false
  | .setSeg _ => before
  | .setDp _ => before

/-- The boundary after `es`, counted from reset, is in diagnostic display (rule R75). -/
def inDiagnostic (es : List EventRecord) : Bool := es.foldl (fun b r => diagnosticAfter b r.event) false

/-- At most one `sel[k]` is 1. -/
def Latches.atMostOneSelected (l : Latches) : Prop :=
  ∀ j k : Fin 4, l.sel.getLsbD j = true → l.sel.getLsbD k = true → j = k

/-- Exactly `sel[k]` is 1. -/
def Latches.onlySelected (l : Latches) (k : Nat) : Prop := ∀ j : Fin 4, l.sel.getLsbD j = decide (j.val = k)

/-- The latches are what the events since reset left, and at every event boundary outside diagnostic display at most
one digit is selected (rule R75). -/
def MuxInvariant (s : State) : Prop :=
  s.out = replay Latches.reset s.events ∧
  ∀ es later, s.events = es ++ later → inDiagnostic es = false → (replay Latches.reset es).atMostOneSelected

/-- Every change of the segment lines or of the decimal point was made with no digit selected (20_memory.md rule R42,
70_reset_and_hazards.md rule R110). -/
def GhostFree (s : State) : Prop :=
  ∀ es r later, s.events = es ++ r :: later →
    (∃ p, r.event = .setSeg p) ∨ (∃ b, r.event = .setDp b) → (replay Latches.reset es).sel = 0

/-! ## The events of one output sequence -/

/-- The select event of a target, if it has one (41_scanner.md rules R70, R79). -/
def selectEvents : Target → List OutputEvent
  | .all => [.selectAll]
  | .single i => if h : i.toNat < 4 then [.select ⟨i.toNat, h⟩] else []

/-- The events of an output sequence, in the order of 20_memory.md rule R42. -/
def sequenceEvents (pattern : BitVec 7) (target : Target) (dpEn : Bool) : List OutputEvent :=
  [.deselectAll, .setSeg pattern, .setDp dpEn] ++ selectEvents target

/-- Events with the agent and the operation that emitted them (10_state.md rule R31). -/
def tagged (a : Agent) (op : Operation) (es : List OutputEvent) : List EventRecord := es.map (fun e => ⟨a, op, e⟩)

/-- The events of a TICK that reads value `v` at cursor position `c` (41_scanner.md rule R69), on this hardware: digit
`(v div 10^c) mod 10`, and the point at position 3. -/
def tickEvents (glyphs : Config.Glyphs) (v c : Nat) : List EventRecord :=
  tagged .scan .tick
    (sequenceEvents (segmentsOf glyphs (BitVec.ofNat 5 (v / 10 ^ c % 10))) (.single (BitVec.ofNat 4 c)) (c == 3))

/-! ## Runs -/

/-- HOST has issued every command, the timer is disarmed and no mark is set (70_reset_and_hazards.md rule R119). -/
def State.settled (s : State) : Prop :=
  (∀ cmd, Input.host cmd ∉ s.inputs) ∧ s.scanEn = false ∧ s.fault = none ∧ s.refused = none

/-- The command word does not drive the outputs or arm the timer: it is no START and no DIGIT. -/
def quietWord (cmd : Word) : Prop :=
  ∀ i, decodeHost cmd = .command i → (∀ p, i ≠ .start p) ∧ ∀ v t e, i ≠ .digit v t e

/-- Only quiet words, expiries and ENCODE queries: no START, no DIGIT and no reset. -/
def quietInputs (l : List Input) : Prop := ∀ x ∈ l, x ≠ .reset ∧ ∀ cmd, x = .host cmd → quietWord cmd

/-! ## The hand-off cell as one register -/

/-- The display value after an input arrives at an unmarked state, by the single-register reading of 42_handoff.md rule
R84: a PUBLISH replaces it whole, reset clears it, nothing else writes it. -/
def registerAfter (v : Value) : Option Input → Value
  | some (.host cmd) =>
    match decodeHost cmd with
    | .command (.publish data) => data
    | _ => v
  | some .reset => 0
  | _ => v

/-- The two states differ at most in what the ping-pong cell hides: which bank is published, and the back bank. -/
def SameButBanks (a b : State) : Prop := a.sdv = b.sdv ∧ { a with bank := b.bank, pub := b.pub } = b

/-- Two outcomes that no output and no mark tells apart. -/
def SameOutcome : Host.Outcome State Fault Refusal → Host.Outcome State Fault Refusal → Prop
  | .next a, .next b => SameButBanks a b
  | .fault q, .fault r => q = r
  | .refused q, .refused r => q = r
  | _, _ => False

end Sys2Proof.Machine
end

