-- ==== Sys2Proof/Certificates/Slice0/Obligations.lean ====
section
/-! DEFINITION. The statements for the provers. Each docstring names the rule of spec/ it formalises; a clause that rests
on a log entry says so. -/

open Sys2Proof Sys2Proof.Machine

/-! ## Encoding -/

/-- Every well-formed instruction, with every operand at every value, is read back from the port it arrives on and from
its bits as the opcode table numbers them (30_encoding.md sections 1 to 3). The second clause rests on the model's choice
of a table row's port, log entry 16: 8 bits are the ENCODE port and 0x10000000 is the SCAN event code, a word that rule
R57 refuses on the host port. -/
def Obligations.EncodedInstructionDecodesBack : Prop :=
  ∀ i : Instr, i.wf = true →
    inputInstr (encode i) = some i ∧ decodeTableWord (encodeBits i) (encodeWord i).toNat = some i

/-- Encodings are unique: a command word that decodes is the encoding of the instruction it decodes to, which is
well-formed and is neither TICK nor ENCODE (30_encoding.md section 4). -/
def Obligations.DecodedWordIsTheEncoding : Prop :=
  ∀ (cmd : Word) (i : Instr), decodeHost cmd = .command i →
    encodeWord i = cmd ∧ i.wf = true ∧ i ≠ .tick ∧ ∀ d, i ≠ .encode d

/-- The decoder of the host port, in the terms of the opcode table's masks: OP selects the operation (30_encoding.md rule
R47), each word is refused for the first reason in the order of rule R57, and each remaining word means what rule R54
assembles. -/
def Obligations.HostWordRefusedInOrder : Prop :=
  ∀ cmd : Word,
    (6 ≤ cmd.toNat / 2 ^ 28 → decodeHost cmd = .refuse .reservedOpcode) ∧
    (cmd.toNat / 2 ^ 28 = 1 → decodeHost cmd = .refuse .hostTick) ∧
    (cmd.toNat / 2 ^ 28 = 0 → decodeHost cmd = if cmd &&& 0x0FFFFFFF ≠ 0 then .refuse .reservedBits else .command .nop) ∧
    (cmd.toNat / 2 ^ 28 = 4 → decodeHost cmd = if cmd &&& 0x0FFFFFFF ≠ 0 then .refuse .reservedBits else .command .stop) ∧
    (cmd.toNat / 2 ^ 28 = 2 → decodeHost cmd =
      if cmd &&& 0x0FE03FF0 ≠ 0 then .refuse .reservedBits
      else if cmd.getLsbD 14 = true ∧ cmd.toNat % 2 ^ 4 ≠ 0 then .refuse .allWithIndex
      else .command (.digit (BitVec.ofNat 5 (cmd.toNat / 2 ^ 16))
        (if cmd.getLsbD 14 = true then .all else .single (BitVec.ofNat 4 cmd.toNat)) (cmd.getLsbD 15))) ∧
    (cmd.toNat / 2 ^ 28 = 3 → decodeHost cmd =
      if cmd &&& 0x0FFF0000 ≠ 0 then .refuse .reservedBits
      else if cmd.toNat % 2 ^ 16 = 0 then .refuse .zeroPeriod
      else .command (.start (BitVec.ofNat 16 cmd.toNat))) ∧
    (cmd.toNat / 2 ^ 28 = 5 → decodeHost cmd =
      if cmd &&& 0x0FFF0000 ≠ 0 then .refuse .reservedBits else .command (.publish (BitVec.ofNat 16 cmd.toNat)))

/-- Words written out bit by bit from the formats decode to what they stand for: the six host words by 95_test_vectors.md
V9, the TICK event code by 30_encoding.md rule R51, the ENCODE port's bits by rule R53. The last two clauses rest on log
entry 16, the model's choice of a table row's port: V9 has no ENCODE row, and on the host port it refuses 0x10000000. -/
def Obligations.WrittenOutWordsDecode : Prop :=
  decodeHost 0b00000000000000000000000000000000#32 = .command .nop ∧
  decodeHost 0b00100000000001110000000000000011#32 = .command (.digit 7 (.single 3) false) ∧
  decodeHost 0b00100000000010001100000000000000#32 = .command (.digit 8 .all true) ∧
  decodeHost 0b00110000000000000000000000011110#32 = .command (.start 30) ∧
  decodeHost 0b01000000000000000000000000000000#32 = .command .stop ∧
  decodeHost 0b01010000000000000000001111101111#32 = .command (.publish 1007) ∧
  decodeTableWord 32 0b00010000000000000000000000000000 = some .tick ∧
  decodeTableWord 8 0b00000111 = some (.encode 7)

/-! ## Steps and scheduling -/

/-- A step runs the decoded instruction on the state from which the input has been taken: an ENCODE query (30_encoding.md
rule R53) at every state, a marked one too, which is log entry 8; at an unmarked state a host word (rule R46) and an expiry
while armed (60_exceptions.md rule R92). With nothing arriving it runs TICK while armed and the idle port's NOP while
disarmed: the enabled steps of rule R105, in the order that log entry 1 chooses. -/
def Obligations.StepRunsDecodedInstruction : Prop :=
  ∀ (s : State) (rest : List Input),
    (∀ d, s.inputs = .query d :: rest → step s = exec (.encode d) { s with inputs := rest }) ∧
    (s.fault = none → s.refused = none →
      (∀ cmd i, s.inputs = .host cmd :: rest → decodeHost cmd = .command i →
        step s = exec i { s with inputs := rest }) ∧
      (s.inputs = .scan :: rest → s.scanEn = true → step s = exec .tick { s with inputs := rest }) ∧
      (s.inputs = [] → step s = if s.scanEn then exec .tick s else exec .nop s))

/-- A placed table word is the instruction the next step runs. Placing it, with the marks cleared and the timer armed for
TICK, is log entry 2; the port its bits arrive on is log entry 16. -/
def Obligations.PlacedWordRunsNext : Prop :=
  ∀ (s : State) (nbits w : Nat) (i : Instr), decodeTableWord nbits w = some i →
    step (s.withFetchWord nbits w) =
      exec i { s with fault := none, refused := none, scanEn := if i = .tick then true else s.scanEn }

/-- 60_exceptions.md rule R92: an expiry is a TICK exactly when the timer is armed and no mark is set; any other expiry
shows nothing (STOP cancels it, nothing is queued); START and STOP are the enable; taking a TICK consumes nothing. -/
def Obligations.TickTakenExactlyWhenEnabled : Prop :=
  ∀ s : State,
    (∀ rest, s.inputs = .scan :: rest →
      (s.scanEn = true ∧ s.fault = none ∧ s.refused = none → step s = exec .tick { s with inputs := rest }) ∧
      (s.scanEn = false ∨ s.fault ≠ none ∨ s.refused ≠ none → ∀ t, step s = .next t →
        t.out = s.out ∧ t.events = s.events ∧ t.cursor = s.cursor ∧ t.scanEn = s.scanEn ∧ t.inputs = rest)) ∧
    (∃ t, exec .tick s = .next t ∧ t.scanEn = s.scanEn ∧ t.fault = s.fault ∧ t.refused = s.refused) ∧
    (∃ t, exec .stop s = .next t ∧ t.scanEn = false) ∧
    ∀ p, p ≠ 0 → ∃ t, exec (.start p) s = .next t ∧ t.scanEn = true

/-- 60_exceptions.md rules R94, R95 and R105: at a marked state neither agent has a step, whatever arrives for one; the
step stops with the recorded reason and command word (the fault mark first, log entry 18). Queries and resets, which a
marked state still serves, are log entries 8 and 9. -/
def Obligations.MarkedStateIsQuiescent : Prop :=
  ∀ s : State, (∀ d rest, s.inputs ≠ .query d :: rest) → (∀ rest, s.inputs ≠ .reset :: rest) →
    (∀ r cmd, s.fault = some (r, cmd) → step s = .fault (.faulted r cmd)) ∧
    (∀ r cmd, s.fault = none → s.refused = some (r, cmd) → step s = .refused (.refusedWord r cmd))

/-- 10_state.md rules R29 and R30: a mark once set is cleared by no operation and by no step but reset. -/
def Obligations.MarksAreSticky : Prop :=
  (∀ (i : Instr) (s t : State), exec i s = .next t →
    (s.fault ≠ none → t.fault = s.fault) ∧ (s.refused ≠ none → t.refused = s.refused)) ∧
  ∀ s t : State, (∀ rest, s.inputs ≠ .reset :: rest) → step s = .next t →
    (s.fault ≠ none → t.fault = s.fault) ∧ (s.refused ≠ none → t.refused = s.refused)

/-- 60_exceptions.md rule R95: the first refused word is recorded with its reason, nothing else changes, and the state
that results is no settled state and has no step left for either agent. That the refusing step is a next state carrying
the mark is the reading of log entry 3. -/
def Obligations.RefusalMarksOnceAndStops : Prop :=
  ∀ (s : State) (cmd : Word) (rest : List Input) (r : RefusalReason), s.fault = none → s.refused = none →
    s.inputs = .host cmd :: rest → decodeHost cmd = .refuse r →
    ∃ t, step s = .next t ∧ t = { s with inputs := rest, refused := some (r, cmd) } ∧ ¬ t.settled ∧
      ∀ x, x = .scan ∨ (∃ w, x = .host w) → ∀ more,
        step { t with inputs := x :: more } = .refused (.refusedWord r cmd)

/-- With the timer armed and no command waiting that would stop it, a TICK is taken once the waiting commands are served:
the weak fairness of 60_exceptions.md rule R105, by the schedule of log entry 1. -/
def Obligations.ArmedBlockEventuallyTicks : Prop :=
  ∀ s : State, s.scanEn = true → s.fault = none → s.refused = none →
    (∀ x ∈ s.inputs, ∃ cmd i, x = .host cmd ∧ decodeHost cmd = .command i ∧ i ≠ .stop ∧ ∀ v t e, i ≠ .digit v t e) →
    ∃ t u, runN s.inputs.length s = .next t ∧ t.inputs = [] ∧ t.events = s.events ∧ t.cursor = s.cursor ∧
      step t = .next u ∧ exec .tick t = .next u ∧
      u.events = s.events ++ tickEvents s.glyphs t.sdv.toNat s.cursor.toNat

/-! ## Reset -/

/-- The reset values of 10_state.md rule R33, with SDV = 0. -/
def Obligations.ResetLeavesTheTable : Prop :=
  State.reset.cursor = 3 ∧ State.reset.scanEn = false ∧ State.reset.periodMs = 30 ∧ State.reset.out.seg = 0b0000000 ∧
  State.reset.out.dp = false ∧ State.reset.out.sel = 0 ∧ State.reset.bank[0] = 0 ∧ State.reset.bank[1] = 0 ∧
  State.reset.pub = 0 ∧ State.reset.fault = none ∧ State.reset.refused = none ∧ State.reset.events = [] ∧
  State.reset.sdv = 0

/-- 70_reset_and_hazards.md rule R106: reset takes any state, a marked one too, to the values of R33 without an event. That
it may arrive in the middle of a run, and that the configuration and the waiting inputs outlive it, is log entry 9. -/
def Obligations.ResetWorksFromAnyState : Prop :=
  ∀ (s : State) (rest : List Input), s.inputs = .reset :: rest →
    ∃ t, step s = .next t ∧ t.cursor = 3 ∧ t.scanEn = false ∧ t.periodMs = 30 ∧ t.out = ⟨0, false, 0⟩ ∧
      t.bank[0] = 0 ∧ t.bank[1] = 0 ∧ t.pub = 0 ∧ t.fault = none ∧ t.refused = none ∧ t.events = [] ∧
      t.glyphs = s.glyphs ∧ t.encIn = s.encIn ∧ t.inputs = rest

/-! ## The instructions -/

/-- 40_encoder.md rule R61: ENCODE answers SEG_TABLE[d], and entry 16 above 16; no state of the block is written (`encIn` is
the wire the environment drives, log entry 8). Bit 7 of every answer is 0, 16..31 are blank, and with the default table
7 answers 0x07. -/
def Obligations.EncodeAnswersTheTable : Prop :=
  ∀ (d : DigitIn) (s : State),
    ∃ t, exec (.encode d) s = .next t ∧
      t.encOut = (if d.toNat ≤ 16 then segTable s.glyphs d.toNat else segTable s.glyphs 16) ∧
      t = { s with encIn := d } ∧ t.encOut.getLsbD 7 = false ∧ (16 ≤ d.toNat → t.encOut = 0x00) ∧
      (s.glyphs = defaultGlyphs → d = 7 → t.encOut = 0x07)

/-- 42_handoff.md rule R88: NOP from any state leaves the state unchanged and emits nothing; its word is exactly 0, and with
a reserved bit set it is refused. -/
def Obligations.NopLeavesTheState : Prop :=
  (∀ s : State, exec .nop s = .next s) ∧
  ∀ cmd : Word, cmd.toNat / 2 ^ 28 = 0 → decodeHost cmd = if cmd = 0 then .command .nop else .refuse .reservedBits

/-- 41_scanner.md rule R69 on this hardware, from every state: the digit is `(SDV div 10^cursor) mod 10` (R66), at most 9,
shown at the cursor's position; the point is on exactly at position 3; the cursor goes down and wraps (R68); the four
events come in order; nothing else changes. An expiry that finds TICK not enabled shows nothing. -/
def Obligations.TickShowsTheDigitUnderTheCursor : Prop :=
  ∀ s : State, ∃ t, exec .tick s = .next t ∧
    (∃ d : DigitIn, d.toNat = s.sdv.toNat / 10 ^ s.cursor.toNat % 10 ∧ d.toNat ≤ 9 ∧
      t.out.seg = (encodeDigit s.glyphs d).setWidth 7 ∧
      ∃ k : Fin 4, k.val = s.cursor.toNat ∧
        t.events = s.events ++ [⟨.scan, .tick, .deselectAll⟩, ⟨.scan, .tick, .setSeg t.out.seg⟩,
          ⟨.scan, .tick, .setDp t.out.dp⟩, ⟨.scan, .tick, .select k⟩]) ∧
    t.out.dp = decide (s.cursor.toNat = 3) ∧ t.out.onlySelected s.cursor.toNat ∧
    t.cursor.toNat = (if s.cursor.toNat = 0 then 3 else s.cursor.toNat - 1) ∧
    t = { s with cursor := t.cursor, out := t.out, events := t.events } ∧
    ∀ rest u, s.inputs = .scan :: rest → (s.scanEn = false ∨ s.fault ≠ none ∨ s.refused ≠ none) → step s = .next u →
      u.out = s.out ∧ u.events = s.events ∧ u.cursor = s.cursor

/-- 41_scanner.md rules R70 and R79, on the port that exposes the output sequence: while the timer is disarmed a DIGIT of a
value above 16 does nothing, and one of a value 0..16 deselects, writes the segments and the point, and selects every
digit, the one digit, or none (an index of 4 or more), in that order of events. Only the outputs and the event list are
written. -/
def Obligations.DigitDrivesTheOutputs : Prop :=
  ∀ (value : DigitIn) (target : Target) (dpEn : Bool) (s : State), s.scanEn = false →
    (16 < value.toNat → exec (.digit value target dpEn) s = .next s) ∧
    (value.toNat ≤ 16 →
      ∃ t, exec (.digit value target dpEn) s = .next t ∧ t = { s with out := t.out, events := t.events } ∧
        t.out.seg = (encodeDigit s.glyphs value).setWidth 7 ∧ t.out.dp = dpEn ∧
        (target = .all → t.out.sel = 0b1111) ∧
        (∀ i, target = .single i → t.out.onlySelected i.toNat) ∧
        (∀ i, target = .single i → 4 ≤ i.toNat → t.out.sel = 0b0000) ∧
        t.events = s.events ++ [⟨.host, .digit, .deselectAll⟩, ⟨.host, .digit, .setSeg t.out.seg⟩,
          ⟨.host, .digit, .setDp dpEn⟩] ++ tagged .host .digit (selectEvents target))

/-- 60_exceptions.md rule R94, and the armed case of 41_scanner.md rule R72, whatever VAL is: a DIGIT while the timer is
armed records the reason and the command word once; outputs, cursor, timer, cell and events keep their values; the result
is no settled state, and no agent has a step. That the raising step is a next state carrying the mark is the reading of
log entry 3. -/
def Obligations.DigitWhileArmedFaultsAndStops : Prop :=
  (∀ (v : DigitIn) (g : Target) (e : Bool) (s : State), s.scanEn = true →
    ∃ t, exec (.digit v g e) s = .next t ∧ t = { s with fault := t.fault } ∧ (s.fault ≠ none → t.fault = s.fault) ∧
      (s.fault = none → t.fault = some (.concurrentOutputDrive, encodeWord (.digit v g e)))) ∧
  ∀ (s : State) (cmd : Word) (rest : List Input) (v : DigitIn) (g : Target) (e : Bool), s.fault = none →
    s.refused = none → s.scanEn = true → s.inputs = .host cmd :: rest → decodeHost cmd = .command (.digit v g e) →
    ∃ t, step s = .next t ∧ t = { s with inputs := rest, fault := some (.concurrentOutputDrive, cmd) } ∧
      ¬ t.settled ∧ ∀ x, x = .scan ∨ (∃ w, x = .host w) → ∀ more,
        step { t with inputs := x :: more } = .fault (.faulted .concurrentOutputDrive cmd)

/-- 41_scanner.md rule R73: START writes the period and arms the timer, armed or not, and changes nothing else; its word is
refused for a reserved bit and for a period of 0, and for nothing else. -/
def Obligations.StartArmsTheTimer : Prop :=
  (∀ (p : BitVec 16) (s : State), p ≠ 0 → exec (.start p) s = .next { s with periodMs := p, scanEn := true }) ∧
  ∀ cmd : Word, cmd.toNat / 2 ^ 28 = 3 → decodeHost cmd =
    if cmd &&& 0x0FFF0000 ≠ 0 then .refuse .reservedBits
    else if cmd = 0x30000000 then .refuse .zeroPeriod else .command (.start (BitVec.ofNat 16 cmd.toNat))

/-- The model's own reading of a term no word decodes to (log entry 15): START of period 0 sets the refusal mark its word
sets, once, and changes nothing else. -/
def Obligations.ZeroPeriodTermIsRefused : Prop :=
  ∀ s : State, ∃ t, exec (.start 0) s = .next t ∧ t = { s with refused := t.refused } ∧
    (s.refused = none → t.refused = some (.zeroPeriod, 0x30000000)) ∧ (s.refused ≠ none → t = s)

/-- 41_scanner.md rule R74: STOP disarms the timer; the outputs, the cursor and the period keep their values; while disarmed
it changes nothing; its word is exactly 0x40000000. -/
def Obligations.StopDisarmsTheTimer : Prop :=
  (∀ s : State, exec .stop s = .next { s with scanEn := false }) ∧
  (∀ s : State, s.scanEn = false → exec .stop s = .next s) ∧
  ∀ cmd : Word, cmd.toNat / 2 ^ 28 = 4 →
    decodeHost cmd = if cmd = 0x40000000 then .command .stop else .refuse .reservedBits

/-- 42_handoff.md rules R83 and R87: PUBLISH of any 16-bit value, armed or not, fills the back bank, flips `pub`, and makes
the value the display value unchanged; the value published before stays in what is now the back bank; publishing the
value already published flips `pub` and leaves SDV; nothing else changes; its word is refused for a reserved bit and for
nothing else. -/
def Obligations.PublishReplacesTheValue : Prop :=
  (∀ (data : Value) (s : State),
    ∃ t, exec (.publish data) s = .next t ∧ t.sdv = data ∧ t.pub.val = 1 - s.pub.val ∧ t.bank[s.pub] = s.sdv ∧
      (data = s.sdv → t.sdv = s.sdv ∧ t.pub ≠ s.pub) ∧ t = { s with bank := t.bank, pub := t.pub }) ∧
  ∀ cmd : Word, cmd.toNat / 2 ^ 28 = 5 → decodeHost cmd =
    if cmd &&& 0x0FFF0000 ≠ 0 then .refuse .reservedBits else .command (.publish (BitVec.ofNat 16 cmd.toNat))

/-- The writer column of 10_state.md rule R17, as the frame of every instruction: each field is changed only by the
operations named as its writers; configuration and waiting inputs by none. (`encIn` is the wire of log entry 8; START
touches the refusal mark only as the term of log entry 15.) -/
def Obligations.OnlyTheOwnersWrite : Prop :=
  ∀ (i : Instr) (s t : State), exec i s = .next t →
    (i ≠ .tick → t.cursor = s.cursor) ∧
    (i ≠ .stop → (∀ p, i ≠ .start p) → t.scanEn = s.scanEn) ∧
    ((∀ p, i ≠ .start p) → t.periodMs = s.periodMs) ∧
    (i ≠ .tick → (∀ v g e, i ≠ .digit v g e) → t.out = s.out ∧ t.events = s.events) ∧
    ((∀ d, i ≠ .publish d) → t.bank = s.bank ∧ t.pub = s.pub) ∧
    ((∀ v g e, i ≠ .digit v g e) → t.fault = s.fault) ∧
    ((∀ p, i ≠ .start p) → t.refused = s.refused) ∧
    ((∀ d, i ≠ .encode d) → t.encIn = s.encIn) ∧
    t.glyphs = s.glyphs ∧ t.inputs = s.inputs

/-- Every instruction answers a next state from every state, and so does every step at an unmarked state: by the readings
of log entries 3 and 4 only a marked state stops a run. For DIGIT while armed and for START 0 (log entry 15) that next
state carries the mark, not the operation's own effect. -/
def Obligations.EveryOperationCompletes : Prop :=
  (∀ (i : Instr) (s : State), ∃ t, exec i s = .next t) ∧
  ∀ s : State, s.fault = none → s.refused = none → ∃ t, step s = .next t

/-! ## Output events -/

/-- 41_scanner.md rule R71 and 10_state.md rule R31: an operation only appends events, tagged with its own agent and name,
and the latches after it are what the new events leave. -/
def Obligations.EventsAreAppendedAndApplied : Prop :=
  ∀ (i : Instr) (s t : State), exec i s = .next t →
    ∃ es, t.events = s.events ++ es ∧ t.out = replay s.out es ∧
      ∀ r ∈ es, (i = .tick ∧ r.agent = .scan ∧ r.operation = .tick) ∨
        ((∃ v g e, i = .digit v g e) ∧ r.agent = .host ∧ r.operation = .digit)

/-- The law of 41_scanner.md rule R75: at every event boundary outside diagnostic display at most one digit is selected,
kept by every step from every state that has it. -/
def Obligations.EveryStepKeepsMuxInvariant : Prop :=
  ∀ s t : State, MuxInvariant s → step s = .next t → MuxInvariant t

/-- 20_memory.md rule R42 and 70_reset_and_hazards.md rule R110: segments and point change only while no digit is selected,
kept by every step from every state that has it. -/
def Obligations.EveryStepKeepsGhostFree : Prop :=
  ∀ s t : State, GhostFree s → step s = .next t → GhostFree t

/-- The invariants hold after reset (10_state.md rule R33), the legal period of rule R21 among them. -/
def Obligations.InvariantsHoldAtReset : Prop :=
  MuxInvariant State.reset ∧ GhostFree State.reset ∧ State.reset.periodMs ≠ 0

/-- 10_state.md rule R21: the period register stays in 1..65535. -/
def Obligations.EveryStepKeepsPeriodLegal : Prop :=
  ∀ s t : State, s.periodMs ≠ 0 → step s = .next t → t.periodMs ≠ 0

/-! ## Scanning -/

/-- The law of 41_scanner.md rule R76: n TICKs move the cursor down n positions, wrapping, so 4 bring it back. -/
def Obligations.CursorIsPeriodic : Prop :=
  ∀ (n : Nat) (s : State), s.scanEn = true → s.fault = none → s.refused = none → s.inputs = [] →
    ∃ t, runN n s = .next t ∧ (t.cursor.toNat + n) % 4 = s.cursor.toNat % 4 ∧ (n = 4 → t.cursor = s.cursor)

/-- The law of 41_scanner.md rule R77: four TICKs from cursor 3 with no PUBLISH between them show the decimal digits of
v mod 10000, most significant first, each on its own position, leading zeros included. -/
def Obligations.OneFrameShowsFourDigits : Prop :=
  ∀ s : State, s.scanEn = true → s.fault = none → s.refused = none → s.inputs = [] → s.cursor = 3 →
    ∃ (t : State) (a b c d : Fin 10), runN 4 s = .next t ∧
      1000 * a.val + 100 * b.val + 10 * c.val + d.val = s.sdv.toNat % 10000 ∧
      t.events = s.events ++
        tagged .scan .tick (sequenceEvents (segmentsOf s.glyphs (BitVec.ofNat 5 a.val)) (.single 3) true) ++
        tagged .scan .tick (sequenceEvents (segmentsOf s.glyphs (BitVec.ofNat 5 b.val)) (.single 2) false) ++
        tagged .scan .tick (sequenceEvents (segmentsOf s.glyphs (BitVec.ofNat 5 c.val)) (.single 1) false) ++
        tagged .scan .tick (sequenceEvents (segmentsOf s.glyphs (BitVec.ofNat 5 d.val)) (.single 0) false) ∧
      t.cursor = 3 ∧ t.sdv = s.sdv

/-- The law of 41_scanner.md rule R78: what a TICK shows of a value is what it shows of the value mod 10000. -/
def Obligations.ValuesWrapOnTheDisplay : Prop :=
  ∀ a b ta tb : State, a.cursor = b.cursor → a.glyphs = b.glyphs → b.sdv.toNat = a.sdv.toNat % 10000 →
    exec .tick a = .next ta → exec .tick b = .next tb →
    ta.out.seg = tb.out.seg ∧ ta.out.dp = tb.out.dp ∧ ta.out.sel = tb.out.sel ∧ ta.cursor = tb.cursor

/-- 70_reset_and_hazards.md rules R107 and R115: while the timer is disarmed and neither START nor DIGIT nor reset arrives,
nothing happens on the display, however long the run. -/
def Obligations.StoppedDisplayHolds : Prop :=
  ∀ (n : Nat) (s t : State), s.scanEn = false → quietInputs s.inputs → runN n s = .next t →
    t.out = s.out ∧ t.events = s.events ∧ t.cursor = s.cursor ∧ t.scanEn = false

/-- 70_reset_and_hazards.md rule R119: a settled state stays settled, with the same outputs unless reset (log entry 9) arrives. -/
def Obligations.SettledStateStaysSettled : Prop :=
  ∀ s t : State, s.settled → step s = .next t →
    t.settled ∧ ((∀ rest, s.inputs ≠ .reset :: rest) → t.out = s.out ∧ t.events = s.events ∧ t.sdv = s.sdv)

/-! ## The hand-off cell -/

/-- The law of 42_handoff.md rule R84, step by step: the display value behaves as one 16-bit register that PUBLISH replaces
whole and nothing else but reset (log entry 9) writes. -/
def Obligations.CellIsOneRegister : Prop :=
  ∀ s t : State, step s = .next t → t.sdv = registerAfter s.sdv s.inputs.head?

/-- 10_state.md rule R26 and 42_handoff.md rule R84: which bank is published, and the back bank, are unobservable. Two
states that differ only there run to outcomes that no output, mark or later display value tells apart. -/
def Obligations.BackBankIsUnobservable : Prop :=
  ∀ (n : Nat) (a b : State), SameButBanks a b → SameOutcome (runN n a) (runN n b)

/-- The law of 42_handoff.md rule R85: of any number of PUBLISHes before a TICK only the last is displayed, and the earlier
ones leave no trace in any output. -/
def Obligations.LastPublishWins : Prop :=
  ∀ (s : State) (earlier : List Value) (data : Value) (rest : List Input), s.scanEn = true → s.fault = none →
    s.refused = none →
    s.inputs = (earlier.map fun v => .host (encodeWord (.publish v))) ++
      .host (encodeWord (.publish data)) :: .scan :: rest →
    ∃ t, runN (earlier.length + 2) s = .next t ∧ t.sdv = data ∧ t.inputs = rest ∧
      t.events = s.events ++ tickEvents s.glyphs data.toNat s.cursor.toNat

/-! ## Pins -/

/-- 00_scope.md rule R13: a pin's physical level is its logical level XOR its polarity: the 8 segment lines are active-low,
the select lines have either polarity. -/
def Obligations.PinsFollowThePolarity : Prop :=
  ∀ (s : State) (selActiveLow : Bool),
    (∀ k : Fin 7, s.segPin k = !(s.out.seg.getLsbD k)) ∧ s.dpPin = !s.out.dp ∧
    ∀ k : Fin 4, s.selPin selActiveLow k = (if selActiveLow then !(s.out.sel.getLsbD k) else s.out.sel.getLsbD k)
end

