-- ==== Sys2Proof/Laws/Decode.lean ====
section
/-! SUPPORT. The fields of a command word as arithmetic, as bits and as masks of the opcode table, and the fields of an
encoded word. -/

namespace Sys2Proof

/-! ## Fields as arithmetic -/

theorem opField_toNat (cmd : Word) : (opField cmd).toNat = cmd.toNat / 2 ^ 28 := by
  have := cmd.isLt
  simp [opField, Nat.shiftRight_eq_div_pow]; omega

theorem opField_eq_iff (cmd : Word) {n : Nat} (hn : n < 16) :
    opField cmd = BitVec.ofNat 4 n ↔ cmd.toNat / 2 ^ 28 = n := by
  rw [← opField_toNat]
  constructor
  · intro h; rw [h]; simp; omega
  · intro h; apply BitVec.eq_of_toNat_eq; simp [h]; omega

theorem immField_eq (cmd : Word) : immField cmd = BitVec.ofNat 16 cmd.toNat := by
  apply BitVec.eq_of_toNat_eq; simp [immField]

theorem idxField_eq (cmd : Word) : idxField cmd = BitVec.ofNat 4 cmd.toNat := by
  apply BitVec.eq_of_toNat_eq; simp [idxField]

theorem valField_eq (cmd : Word) : valField cmd = BitVec.ofNat 5 (cmd.toNat / 2 ^ 16) := by
  apply BitVec.eq_of_toNat_eq; simp [valField, Nat.shiftRight_eq_div_pow]

/-! ## Fields as bits -/

theorem opField_bit {cmd : Word} {v : BitVec 4} (h : opField cmd = v) {k : Nat} (hk : k < 4) :
    cmd.getLsbD (28 + k) = v.getLsbD k := by
  subst h; simp [opField, hk]

theorem field_zero_bit {cmd : Word} {lo w : Nat} (h : cmd.extractLsb' lo w = 0) {k : Nat} (hk : k < w) :
    cmd.getLsbD (lo + k) = false := by
  have := congrArg (fun x => x.getLsbD k) h
  simpa [hk] using this

/-! ## Reserved fields as masks (30_encoding.md rules R49 to R51) -/

theorem mask_eq_zero_iff (c : Word) {lo w : Nat} (h : lo + w ≤ 32) :
    c &&& ((BitVec.allOnes w).setWidth 32 <<< lo) = 0 ↔ c.extractLsb' lo w = 0 := by
  constructor
  · intro hc
    apply BitVec.eq_of_getLsbD_eq
    intro k hk
    have hb := congrArg (fun x => x.getLsbD (lo + k)) hc
    have h32 : lo + k < 32 := by omega
    simp [hk, h32] at hb
    simpa [hk, h32] using hb
  · intro hc
    apply BitVec.eq_of_getLsbD_eq
    intro k hk
    by_cases hin : lo ≤ k ∧ k < lo + w
    · obtain ⟨j, rfl⟩ : ∃ j, k = lo + j := ⟨k - lo, by omega⟩
      simp [field_zero_bit hc (k := j) (by omega)]
    · simp only [BitVec.getLsbD_and, BitVec.getLsbD_shiftLeft, BitVec.getLsbD_setWidth, BitVec.getLsbD_allOnes]
      simp; omega

theorem formatZClear_iff (c : Word) : formatZClear c = true ↔ c &&& 0x0FFFFFFF = 0 := by
  simpa [formatZClear] using (mask_eq_zero_iff c (lo := 0) (w := 28) (by omega)).symm

theorem formatPClear_iff (c : Word) : formatPClear c = true ↔ c &&& 0x0FFF0000 = 0 := by
  simpa [formatPClear] using (mask_eq_zero_iff c (lo := 16) (w := 12) (by omega)).symm

theorem formatDClear_iff (c : Word) : formatDClear c = true ↔ c &&& 0x0FE03FF0 = 0 := by
  have e : (0x0FE03FF0 : Word) =
      ((BitVec.allOnes 7).setWidth 32 <<< 21) ||| ((BitVec.allOnes 10).setWidth 32 <<< 4) := by decide
  simp only [formatDClear, Bool.and_eq_true, beq_iff_eq]
  rw [← mask_eq_zero_iff c (lo := 21) (w := 7) (by omega), ← mask_eq_zero_iff c (lo := 4) (w := 10) (by omega), e,
    BitVec.and_or_distrib_left]
  constructor
  · rintro ⟨a, b⟩; rw [a, b]; rfl
  · intro h; simpa using h

end Sys2Proof
end

