-- ==== Sys2Proof/Laws/State.lean ====
section
/-! SUPPORT. One lemma per field per update of the state, so that no proof unfolds a record update. -/

namespace Sys2Proof.Machine

/-! ## State.raiseFault -/

@[simp] theorem State.raiseFault_cursor (s : State) (r : FaultReason) (cmd : Word) : (s.raiseFault r cmd).cursor = s.cursor := rfl
@[simp] theorem State.raiseFault_scanEn (s : State) (r : FaultReason) (cmd : Word) : (s.raiseFault r cmd).scanEn = s.scanEn := rfl
@[simp] theorem State.raiseFault_periodMs (s : State) (r : FaultReason) (cmd : Word) : (s.raiseFault r cmd).periodMs = s.periodMs := rfl
@[simp] theorem State.raiseFault_out (s : State) (r : FaultReason) (cmd : Word) : (s.raiseFault r cmd).out = s.out := rfl
@[simp] theorem State.raiseFault_bank (s : State) (r : FaultReason) (cmd : Word) : (s.raiseFault r cmd).bank = s.bank := rfl
@[simp] theorem State.raiseFault_pub (s : State) (r : FaultReason) (cmd : Word) : (s.raiseFault r cmd).pub = s.pub := rfl
@[simp] theorem State.raiseFault_fault (s : State) (r : FaultReason) (cmd : Word) : (s.raiseFault r cmd).fault = (s.fault <|> some (r, cmd)) := rfl
@[simp] theorem State.raiseFault_refused (s : State) (r : FaultReason) (cmd : Word) : (s.raiseFault r cmd).refused = s.refused := rfl
@[simp] theorem State.raiseFault_events (s : State) (r : FaultReason) (cmd : Word) : (s.raiseFault r cmd).events = s.events := rfl
@[simp] theorem State.raiseFault_glyphs (s : State) (r : FaultReason) (cmd : Word) : (s.raiseFault r cmd).glyphs = s.glyphs := rfl
@[simp] theorem State.raiseFault_encIn (s : State) (r : FaultReason) (cmd : Word) : (s.raiseFault r cmd).encIn = s.encIn := rfl
@[simp] theorem State.raiseFault_inputs (s : State) (r : FaultReason) (cmd : Word) : (s.raiseFault r cmd).inputs = s.inputs := rfl

/-! ## State.refuse -/

@[simp] theorem State.refuse_cursor (s : State) (r : RefusalReason) (cmd : Word) : (s.refuse r cmd).cursor = s.cursor := rfl
@[simp] theorem State.refuse_scanEn (s : State) (r : RefusalReason) (cmd : Word) : (s.refuse r cmd).scanEn = s.scanEn := rfl
@[simp] theorem State.refuse_periodMs (s : State) (r : RefusalReason) (cmd : Word) : (s.refuse r cmd).periodMs = s.periodMs := rfl
@[simp] theorem State.refuse_out (s : State) (r : RefusalReason) (cmd : Word) : (s.refuse r cmd).out = s.out := rfl
@[simp] theorem State.refuse_bank (s : State) (r : RefusalReason) (cmd : Word) : (s.refuse r cmd).bank = s.bank := rfl
@[simp] theorem State.refuse_pub (s : State) (r : RefusalReason) (cmd : Word) : (s.refuse r cmd).pub = s.pub := rfl
@[simp] theorem State.refuse_fault (s : State) (r : RefusalReason) (cmd : Word) : (s.refuse r cmd).fault = s.fault := rfl
@[simp] theorem State.refuse_refused (s : State) (r : RefusalReason) (cmd : Word) : (s.refuse r cmd).refused = (s.refused <|> some (r, cmd)) := rfl
@[simp] theorem State.refuse_events (s : State) (r : RefusalReason) (cmd : Word) : (s.refuse r cmd).events = s.events := rfl
@[simp] theorem State.refuse_glyphs (s : State) (r : RefusalReason) (cmd : Word) : (s.refuse r cmd).glyphs = s.glyphs := rfl
@[simp] theorem State.refuse_encIn (s : State) (r : RefusalReason) (cmd : Word) : (s.refuse r cmd).encIn = s.encIn := rfl
@[simp] theorem State.refuse_inputs (s : State) (r : RefusalReason) (cmd : Word) : (s.refuse r cmd).inputs = s.inputs := rfl

/-! ## State.consume -/

@[simp] theorem State.consume_cursor (s : State) (rest : List Input) : (s.consume rest).cursor = s.cursor := rfl
@[simp] theorem State.consume_scanEn (s : State) (rest : List Input) : (s.consume rest).scanEn = s.scanEn := rfl
@[simp] theorem State.consume_periodMs (s : State) (rest : List Input) : (s.consume rest).periodMs = s.periodMs := rfl
@[simp] theorem State.consume_out (s : State) (rest : List Input) : (s.consume rest).out = s.out := rfl
@[simp] theorem State.consume_bank (s : State) (rest : List Input) : (s.consume rest).bank = s.bank := rfl
@[simp] theorem State.consume_pub (s : State) (rest : List Input) : (s.consume rest).pub = s.pub := rfl
@[simp] theorem State.consume_fault (s : State) (rest : List Input) : (s.consume rest).fault = s.fault := rfl
@[simp] theorem State.consume_refused (s : State) (rest : List Input) : (s.consume rest).refused = s.refused := rfl
@[simp] theorem State.consume_events (s : State) (rest : List Input) : (s.consume rest).events = s.events := rfl
@[simp] theorem State.consume_glyphs (s : State) (rest : List Input) : (s.consume rest).glyphs = s.glyphs := rfl
@[simp] theorem State.consume_encIn (s : State) (rest : List Input) : (s.consume rest).encIn = s.encIn := rfl
@[simp] theorem State.consume_inputs (s : State) (rest : List Input) : (s.consume rest).inputs = rest := rfl

/-! ## State.emit -/

@[simp] theorem State.emit_cursor (s : State) (a : Agent) (op : Operation) (e : OutputEvent) : (s.emit a op e).cursor = s.cursor := rfl
@[simp] theorem State.emit_scanEn (s : State) (a : Agent) (op : Operation) (e : OutputEvent) : (s.emit a op e).scanEn = s.scanEn := rfl
@[simp] theorem State.emit_periodMs (s : State) (a : Agent) (op : Operation) (e : OutputEvent) : (s.emit a op e).periodMs = s.periodMs := rfl
@[simp] theorem State.emit_out (s : State) (a : Agent) (op : Operation) (e : OutputEvent) : (s.emit a op e).out = s.out.apply e := rfl
@[simp] theorem State.emit_bank (s : State) (a : Agent) (op : Operation) (e : OutputEvent) : (s.emit a op e).bank = s.bank := rfl
@[simp] theorem State.emit_pub (s : State) (a : Agent) (op : Operation) (e : OutputEvent) : (s.emit a op e).pub = s.pub := rfl
@[simp] theorem State.emit_fault (s : State) (a : Agent) (op : Operation) (e : OutputEvent) : (s.emit a op e).fault = s.fault := rfl
@[simp] theorem State.emit_refused (s : State) (a : Agent) (op : Operation) (e : OutputEvent) : (s.emit a op e).refused = s.refused := rfl
@[simp] theorem State.emit_events (s : State) (a : Agent) (op : Operation) (e : OutputEvent) : (s.emit a op e).events = s.events ++ [⟨a, op, e⟩] := rfl
@[simp] theorem State.emit_glyphs (s : State) (a : Agent) (op : Operation) (e : OutputEvent) : (s.emit a op e).glyphs = s.glyphs := rfl
@[simp] theorem State.emit_encIn (s : State) (a : Agent) (op : Operation) (e : OutputEvent) : (s.emit a op e).encIn = s.encIn := rfl
@[simp] theorem State.emit_inputs (s : State) (a : Agent) (op : Operation) (e : OutputEvent) : (s.emit a op e).inputs = s.inputs := rfl

/-! ## State.arm -/

@[simp] theorem State.arm_cursor (s : State) (p : BitVec 16) : (s.arm p).cursor = s.cursor := rfl
@[simp] theorem State.arm_scanEn (s : State) (p : BitVec 16) : (s.arm p).scanEn = true := rfl
@[simp] theorem State.arm_periodMs (s : State) (p : BitVec 16) : (s.arm p).periodMs = p := rfl
@[simp] theorem State.arm_out (s : State) (p : BitVec 16) : (s.arm p).out = s.out := rfl
@[simp] theorem State.arm_bank (s : State) (p : BitVec 16) : (s.arm p).bank = s.bank := rfl
@[simp] theorem State.arm_pub (s : State) (p : BitVec 16) : (s.arm p).pub = s.pub := rfl
@[simp] theorem State.arm_fault (s : State) (p : BitVec 16) : (s.arm p).fault = s.fault := rfl
@[simp] theorem State.arm_refused (s : State) (p : BitVec 16) : (s.arm p).refused = s.refused := rfl
@[simp] theorem State.arm_events (s : State) (p : BitVec 16) : (s.arm p).events = s.events := rfl
@[simp] theorem State.arm_glyphs (s : State) (p : BitVec 16) : (s.arm p).glyphs = s.glyphs := rfl
@[simp] theorem State.arm_encIn (s : State) (p : BitVec 16) : (s.arm p).encIn = s.encIn := rfl
@[simp] theorem State.arm_inputs (s : State) (p : BitVec 16) : (s.arm p).inputs = s.inputs := rfl

/-! ## State.disarm -/

@[simp] theorem State.disarm_cursor (s : State) : s.disarm.cursor = s.cursor := rfl
@[simp] theorem State.disarm_scanEn (s : State) : s.disarm.scanEn = false := rfl
@[simp] theorem State.disarm_periodMs (s : State) : s.disarm.periodMs = s.periodMs := rfl
@[simp] theorem State.disarm_out (s : State) : s.disarm.out = s.out := rfl
@[simp] theorem State.disarm_bank (s : State) : s.disarm.bank = s.bank := rfl
@[simp] theorem State.disarm_pub (s : State) : s.disarm.pub = s.pub := rfl
@[simp] theorem State.disarm_fault (s : State) : s.disarm.fault = s.fault := rfl
@[simp] theorem State.disarm_refused (s : State) : s.disarm.refused = s.refused := rfl
@[simp] theorem State.disarm_events (s : State) : s.disarm.events = s.events := rfl
@[simp] theorem State.disarm_glyphs (s : State) : s.disarm.glyphs = s.glyphs := rfl
@[simp] theorem State.disarm_encIn (s : State) : s.disarm.encIn = s.encIn := rfl
@[simp] theorem State.disarm_inputs (s : State) : s.disarm.inputs = s.inputs := rfl

/-! ## State.advanceCursor -/

@[simp] theorem State.advanceCursor_cursor (s : State) : s.advanceCursor.cursor = BitVec.ofNat 2 (nextCursor Config.displayCount s.cursor.toNat) := rfl
@[simp] theorem State.advanceCursor_scanEn (s : State) : s.advanceCursor.scanEn = s.scanEn := rfl
@[simp] theorem State.advanceCursor_periodMs (s : State) : s.advanceCursor.periodMs = s.periodMs := rfl
@[simp] theorem State.advanceCursor_out (s : State) : s.advanceCursor.out = s.out := rfl
@[simp] theorem State.advanceCursor_bank (s : State) : s.advanceCursor.bank = s.bank := rfl
@[simp] theorem State.advanceCursor_pub (s : State) : s.advanceCursor.pub = s.pub := rfl
@[simp] theorem State.advanceCursor_fault (s : State) : s.advanceCursor.fault = s.fault := rfl
@[simp] theorem State.advanceCursor_refused (s : State) : s.advanceCursor.refused = s.refused := rfl
@[simp] theorem State.advanceCursor_events (s : State) : s.advanceCursor.events = s.events := rfl
@[simp] theorem State.advanceCursor_glyphs (s : State) : s.advanceCursor.glyphs = s.glyphs := rfl
@[simp] theorem State.advanceCursor_encIn (s : State) : s.advanceCursor.encIn = s.encIn := rfl
@[simp] theorem State.advanceCursor_inputs (s : State) : s.advanceCursor.inputs = s.inputs := rfl

/-! ## State.handoffWrite -/

@[simp] theorem State.handoffWrite_cursor (s : State) (v : Value) : (s.handoffWrite v).cursor = s.cursor := rfl
@[simp] theorem State.handoffWrite_scanEn (s : State) (v : Value) : (s.handoffWrite v).scanEn = s.scanEn := rfl
@[simp] theorem State.handoffWrite_periodMs (s : State) (v : Value) : (s.handoffWrite v).periodMs = s.periodMs := rfl
@[simp] theorem State.handoffWrite_out (s : State) (v : Value) : (s.handoffWrite v).out = s.out := rfl
@[simp] theorem State.handoffWrite_bank (s : State) (v : Value) : (s.handoffWrite v).bank = s.bank.set s.back v := rfl
@[simp] theorem State.handoffWrite_pub (s : State) (v : Value) : (s.handoffWrite v).pub = s.back := rfl
@[simp] theorem State.handoffWrite_fault (s : State) (v : Value) : (s.handoffWrite v).fault = s.fault := rfl
@[simp] theorem State.handoffWrite_refused (s : State) (v : Value) : (s.handoffWrite v).refused = s.refused := rfl
@[simp] theorem State.handoffWrite_events (s : State) (v : Value) : (s.handoffWrite v).events = s.events := rfl
@[simp] theorem State.handoffWrite_glyphs (s : State) (v : Value) : (s.handoffWrite v).glyphs = s.glyphs := rfl
@[simp] theorem State.handoffWrite_encIn (s : State) (v : Value) : (s.handoffWrite v).encIn = s.encIn := rfl
@[simp] theorem State.handoffWrite_inputs (s : State) (v : Value) : (s.handoffWrite v).inputs = s.inputs := rfl

/-! ## State.driveEncIn -/

@[simp] theorem State.driveEncIn_cursor (s : State) (d : DigitIn) : (s.driveEncIn d).cursor = s.cursor := rfl
@[simp] theorem State.driveEncIn_scanEn (s : State) (d : DigitIn) : (s.driveEncIn d).scanEn = s.scanEn := rfl
@[simp] theorem State.driveEncIn_periodMs (s : State) (d : DigitIn) : (s.driveEncIn d).periodMs = s.periodMs := rfl
@[simp] theorem State.driveEncIn_out (s : State) (d : DigitIn) : (s.driveEncIn d).out = s.out := rfl
@[simp] theorem State.driveEncIn_bank (s : State) (d : DigitIn) : (s.driveEncIn d).bank = s.bank := rfl
@[simp] theorem State.driveEncIn_pub (s : State) (d : DigitIn) : (s.driveEncIn d).pub = s.pub := rfl
@[simp] theorem State.driveEncIn_fault (s : State) (d : DigitIn) : (s.driveEncIn d).fault = s.fault := rfl
@[simp] theorem State.driveEncIn_refused (s : State) (d : DigitIn) : (s.driveEncIn d).refused = s.refused := rfl
@[simp] theorem State.driveEncIn_events (s : State) (d : DigitIn) : (s.driveEncIn d).events = s.events := rfl
@[simp] theorem State.driveEncIn_glyphs (s : State) (d : DigitIn) : (s.driveEncIn d).glyphs = s.glyphs := rfl
@[simp] theorem State.driveEncIn_encIn (s : State) (d : DigitIn) : (s.driveEncIn d).encIn = d := rfl
@[simp] theorem State.driveEncIn_inputs (s : State) (d : DigitIn) : (s.driveEncIn d).inputs = s.inputs := rfl

/-! ## State.withInput -/

@[simp] theorem State.withInput_cursor (s : State) (x : Input) : (s.withInput x).cursor = s.cursor := rfl
@[simp] theorem State.withInput_scanEn (s : State) (x : Input) : (s.withInput x).scanEn = (if x = .scan then true else s.scanEn) := rfl
@[simp] theorem State.withInput_periodMs (s : State) (x : Input) : (s.withInput x).periodMs = s.periodMs := rfl
@[simp] theorem State.withInput_out (s : State) (x : Input) : (s.withInput x).out = s.out := rfl
@[simp] theorem State.withInput_bank (s : State) (x : Input) : (s.withInput x).bank = s.bank := rfl
@[simp] theorem State.withInput_pub (s : State) (x : Input) : (s.withInput x).pub = s.pub := rfl
@[simp] theorem State.withInput_fault (s : State) (x : Input) : (s.withInput x).fault = none := rfl
@[simp] theorem State.withInput_refused (s : State) (x : Input) : (s.withInput x).refused = none := rfl
@[simp] theorem State.withInput_events (s : State) (x : Input) : (s.withInput x).events = s.events := rfl
@[simp] theorem State.withInput_glyphs (s : State) (x : Input) : (s.withInput x).glyphs = s.glyphs := rfl
@[simp] theorem State.withInput_encIn (s : State) (x : Input) : (s.withInput x).encIn = s.encIn := rfl
@[simp] theorem State.withInput_inputs (s : State) (x : Input) : (s.withInput x).inputs = x :: s.inputs := rfl

/-! ## State.applyReset -/

@[simp] theorem State.applyReset_cursor (s : State) : s.applyReset.cursor = State.reset.cursor := rfl
@[simp] theorem State.applyReset_scanEn (s : State) : s.applyReset.scanEn = State.reset.scanEn := rfl
@[simp] theorem State.applyReset_periodMs (s : State) : s.applyReset.periodMs = State.reset.periodMs := rfl
@[simp] theorem State.applyReset_out (s : State) : s.applyReset.out = State.reset.out := rfl
@[simp] theorem State.applyReset_bank (s : State) : s.applyReset.bank = State.reset.bank := rfl
@[simp] theorem State.applyReset_pub (s : State) : s.applyReset.pub = State.reset.pub := rfl
@[simp] theorem State.applyReset_fault (s : State) : s.applyReset.fault = State.reset.fault := rfl
@[simp] theorem State.applyReset_refused (s : State) : s.applyReset.refused = State.reset.refused := rfl
@[simp] theorem State.applyReset_events (s : State) : s.applyReset.events = State.reset.events := rfl
@[simp] theorem State.applyReset_glyphs (s : State) : s.applyReset.glyphs = s.glyphs := rfl
@[simp] theorem State.applyReset_encIn (s : State) : s.applyReset.encIn = s.encIn := rfl
@[simp] theorem State.applyReset_inputs (s : State) : s.applyReset.inputs = s.inputs := rfl

end Sys2Proof.Machine
end

