-- ==== Sys2Proof/Laws/Ops.lean ====
section
/-! SUPPORT. What each shared operation does, said once. -/

namespace Sys2Proof.Machine

/-! ## Replaying events -/

@[simp] theorem replay_nil (l : Latches) : replay l [] = l := rfl

@[simp] theorem replay_cons (l : Latches) (r : EventRecord) (es : List EventRecord) :
    replay l (r :: es) = replay (l.apply r.event) es := rfl

@[simp] theorem replay_append (l : Latches) (es fs : List EventRecord) :
    replay l (es ++ fs) = replay (replay l es) fs := List.foldl_append

@[simp] theorem inDiagnostic_nil : inDiagnostic [] = false := rfl

@[simp] theorem inDiagnostic_concat (es : List EventRecord) (r : EventRecord) :
    inDiagnostic (es ++ [r]) = diagnosticAfter (inDiagnostic es) r.event := by
  simp [inDiagnostic]

/-! ## The output sequence -/

/-- An output sequence of a value above 16 does nothing (41_scanner.md rule R70). -/
theorem displaySeq_outOfRange (s : State) (a : Agent) (op : Operation) {v : DigitIn} (t : Target) (e : Bool)
    (h : 16 < v.toNat) : s.displaySeq a op v t e = s := by
  simp [State.displaySeq, Config.blank, h]

/-- An output sequence of a value in 0..16 emits its events in order and writes nothing else (rules R70, R71). -/
theorem displaySeq_inRange (s : State) (a : Agent) (op : Operation) {v : DigitIn} (t : Target) (e : Bool)
    (h : v.toNat ≤ 16) :
    s.displaySeq a op v t e =
      { s with
        out := replay s.out (tagged a op (sequenceEvents (segmentsOf s.glyphs v) t e))
        events := s.events ++ tagged a op (sequenceEvents (segmentsOf s.glyphs v) t e) } := by
  have h' : ¬ Config.blank < v.toNat := by simpa [Config.blank] using h
  cases t with
  | all => simp [State.displaySeq, h', State.emitSelect, State.emit, tagged, sequenceEvents, selectEvents]
  | single i =>
    by_cases hi : i.toNat < 4 <;>
      simp [State.displaySeq, h', State.emitSelect, State.emit, tagged, sequenceEvents, selectEvents, hi]

/-- Every output sequence extends the event list and leaves the latches that the new events leave. -/
theorem displaySeq_appends (s : State) (a : Agent) (op : Operation) (v : DigitIn) (t : Target) (e : Bool) :
    ∃ es, s.displaySeq a op v t e = { s with out := replay s.out es, events := s.events ++ es } ∧
      (es = [] ∨ es = tagged a op (sequenceEvents (segmentsOf s.glyphs v) t e)) := by
  by_cases h : v.toNat ≤ 16
  · exact ⟨_, displaySeq_inRange s a op t e h, .inr rfl⟩
  · exact ⟨[], by simp [displaySeq_outOfRange s a op t e (Nat.lt_of_not_le h)], .inl rfl⟩

/-- The latches an output sequence leaves, whatever they were (rules R70, R79). -/
theorem replay_sequence (l : Latches) (a : Agent) (op : Operation) (p : BitVec 7) (t : Target) (e : Bool) :
    replay l (tagged a op (sequenceEvents p t e)) =
      ⟨p, e, match t with
        | .all => 0b1111
        | .single i => if i.toNat < 4 then 1#4 <<< i.toNat else 0⟩ := by
  cases t with
  | all => simp [tagged, sequenceEvents, selectEvents, Latches.apply]
  | single i => by_cases h : i.toNat < 4 <;> simp [tagged, sequenceEvents, selectEvents, Latches.apply, h]

/-- A one-hot select register selects one digit. -/
theorem onlySelected_shift {l : Latches} {k : Nat} (hk : k < 4) (h : l.sel = 1#4 <<< k) : l.onlySelected k := by
  intro j
  rw [h]
  revert j
  interval_cases k <;> decide

theorem atMostOneSelected_of_zero {l : Latches} (h : l.sel = 0) : l.atMostOneSelected := by
  intro j k
  simp [h]

theorem Latches.onlySelected.atMostOne {l : Latches} {k : Nat} (h : l.onlySelected k) : l.atMostOneSelected := by
  intro i j hi hj
  rw [h] at hi hj
  simp only [decide_eq_true_eq] at hi hj
  exact Fin.ext (hi.trans hj.symm)

/-! ## Digits and cursor -/

theorem digitAt_le_nine (v : Value) (c : Nat) : digitAt v c ≤ 9 := by
  unfold digitAt; omega

theorem nextCursor_lt {n c : Nat} (hn : 0 < n) (hc : c < n) : nextCursor n c < n := by
  unfold nextCursor; split <;> omega

/-! ## The hand-off cell -/

/-- A hand-off replaces the display value whole (42_handoff.md rule R84). -/
@[simp] theorem sdv_handoffWrite (s : State) (v : Value) : (s.handoffWrite v).sdv = v := by
  simp [State.sdv]

theorem back_ne_pub (s : State) : (s.back : Nat) ≠ (s.pub : Nat) := by
  unfold State.back
  generalize s.pub = p
  revert p
  decide

/-- A hand-off leaves the value published before it in the back bank (10_state.md rule R26). -/
theorem handoffWrite_back (s : State) (v : Value) : (s.handoffWrite v).bank[s.pub] = s.sdv := by
  simp [State.sdv, back_ne_pub s]

/-! ## Marks -/

theorem marked_eq_false {s : State} : s.marked = false ↔ s.fault = none ∧ s.refused = none := by
  simp [State.marked]

end Sys2Proof.Machine
end

