-- ==== Sys2Proof/Laws/PerInstr.lean ====
section
/-! SUPPORT. Facts about every instruction as a piece of encoding: its bits match its row of spec/opcode_table.json. -/

namespace Sys2Proof.Laws.TableRow

/-- The row's mask; ENCODE's row is the 5-bit pattern `eeeee`. -/
def mask : Instr → Word
  | .encode _ => 0xFFFFFFE0
  | .nop => 0xFFFFFFFF
  | .tick => 0xFFFFFFFF
  | .digit _ _ _ => 0xFFE03FF0
  | .start _ => 0xFFFF0000
  | .stop => 0xFFFFFFFF
  | .publish _ => 0xFFFF0000

/-- The row's match. -/
def pattern : Instr → Word
  | .encode _ => 0x00000000
  | .nop => 0x00000000
  | .tick => 0x10000000
  | .digit _ _ _ => 0x20000000
  | .start _ => 0x30000000
  | .stop => 0x40000000
  | .publish _ => 0x50000000

/-- The encoder writes every fixed bit of the row as the table has it. -/
def Statement (i : Instr) : Prop := encodeWord i &&& mask i = pattern i

theorem encode (d : DigitIn) : Statement (.encode d) := by
  revert d; unfold Statement; decide

theorem nop : Statement .nop := by unfold Statement; decide

theorem tick : Statement .tick := by unfold Statement; decide

theorem digit (value : DigitIn) (target : Target) (dpEn : Bool) : Statement (.digit value target dpEn) := by
  unfold Statement mask pattern encodeWord
  apply BitVec.eq_of_getLsbD_eq
  intro k hk
  interval_cases k <;> simp [place]

theorem start (period : BitVec 16) : Statement (.start period) := by
  unfold Statement mask pattern encodeWord
  apply BitVec.eq_of_getLsbD_eq
  intro k hk
  interval_cases k <;> simp [place]

theorem stop : Statement .stop := by unfold Statement; decide

theorem publish (data : Value) : Statement (.publish data) := by
  unfold Statement mask pattern encodeWord
  apply BitVec.eq_of_getLsbD_eq
  intro k hk
  interval_cases k <;> simp [place]

end Sys2Proof.Laws.TableRow
end

