-- ==== Sys2Proof/Laws/Step.lean ====
section
/-! SUPPORT. What a step does for each input, said once. -/

namespace Sys2Proof.Machine

/-- A command word that decodes runs its instruction. -/
theorem step_host {s : State} {cmd : Word} {rest : List Input} {i : Instr} (hm : s.marked = false)
    (hi : s.inputs = .host cmd :: rest) (hd : decodeHost cmd = .command i) : step s = exec i (s.consume rest) := by
  simp [step, fetch, hi, whenLive, hm, hostWord, hd]

/-- A command word that is refused sets the mark and does nothing else. -/
theorem step_host_refuse {s : State} {cmd : Word} {rest : List Input} {r : RefusalReason} (hm : s.marked = false)
    (hi : s.inputs = .host cmd :: rest) (hd : decodeHost cmd = .refuse r) :
    step s = .next ((s.consume rest).refuse r cmd) := by
  simp [step, fetch, hi, whenLive, hm, hostWord, hd]

/-- An expiry while armed is a TICK. -/
theorem step_scan_armed {s : State} {rest : List Input} (hm : s.marked = false) (hi : s.inputs = .scan :: rest)
    (ha : s.scanEn = true) : step s = exec .tick (s.consume rest) := by
  simp [step, fetch, hi, whenLive, hm, scanExpiry, ha]

/-- An expiry while disarmed does nothing. -/
theorem step_scan_disarmed {s : State} {rest : List Input} (hm : s.marked = false) (hi : s.inputs = .scan :: rest)
    (ha : s.scanEn = false) : step s = .next (s.consume rest) := by
  simp [step, fetch, hi, whenLive, hm, scanExpiry, ha]

/-- The ENCODE port answers in every state. -/
theorem step_query {s : State} {d : DigitIn} {rest : List Input} (hi : s.inputs = .query d :: rest) :
    step s = exec (.encode d) (s.consume rest) := by
  simp [step, fetch, hi, decodeQuery]

/-- Reset acts in every state. -/
theorem step_reset {s : State} {rest : List Input} (hi : s.inputs = .reset :: rest) :
    step s = .next (s.consume rest).applyReset := by
  simp [step, fetch, hi]

/-- With nothing arriving an armed block ticks. -/
theorem step_idle_armed {s : State} (hm : s.marked = false) (hi : s.inputs = []) (ha : s.scanEn = true) :
    step s = exec .tick s := by
  simp [step, fetch, hi, whenLive, hm, idlePort, ha]

/-- With nothing arriving a disarmed block performs the idle port's NOP. -/
theorem step_idle_disarmed {s : State} (hm : s.marked = false) (hi : s.inputs = []) (ha : s.scanEn = false) :
    step s = exec .nop s := by
  simp [step, fetch, hi, whenLive, hm, idlePort, ha]

/-- Neither agent has a step at a marked state: only an ENCODE query or a reset is served there. -/
theorem step_marked {s : State} (hm : s.marked = true) (hq : ∀ d rest, s.inputs ≠ .query d :: rest)
    (hr : ∀ rest, s.inputs ≠ .reset :: rest) : step s = stopOutcome s := by
  rcases hi : s.inputs with _ | ⟨x, rest⟩
  · simp [step, fetch, hi, whenLive, hm]
  · cases x with
    | host cmd => simp [step, fetch, hi, whenLive, hm]
    | scan => simp [step, fetch, hi, whenLive, hm]
    | query d => exact absurd hi (hq d rest)
    | reset => exact absurd hi (hr rest)

/-- Everything a step can do, for proofs by cases. -/
theorem step_cases {s t : State} (h : step s = .next t) :
    (∃ i rest, s.marked = false ∧ (∃ cmd, s.inputs = .host cmd :: rest ∧ decodeHost cmd = .command i) ∧
      exec i (s.consume rest) = .next t) ∨
    (∃ r cmd rest, s.marked = false ∧ s.inputs = .host cmd :: rest ∧ decodeHost cmd = .refuse r ∧
      t = (s.consume rest).refuse r cmd) ∨
    (∃ rest, s.marked = false ∧ s.scanEn = true ∧ s.inputs = .scan :: rest ∧ exec .tick (s.consume rest) = .next t) ∨
    (∃ rest, s.marked = false ∧ s.scanEn = false ∧ s.inputs = .scan :: rest ∧ t = s.consume rest) ∨
    (∃ d rest, s.inputs = .query d :: rest ∧ t = (s.consume rest).driveEncIn d) ∨
    (∃ rest, s.inputs = .reset :: rest ∧ t = (s.consume rest).applyReset) ∨
    (s.marked = false ∧ s.scanEn = true ∧ s.inputs = [] ∧ exec .tick s = .next t) ∨
    (s.marked = false ∧ s.scanEn = false ∧ s.inputs = [] ∧ t = s) := by
  have hstop : s.marked = true → stopOutcome s ≠ .next t := by
    intro hm
    unfold stopOutcome
    split
    · simp
    · simp
    · next h1 h2 => simp [State.marked, h1, h2] at hm
  rcases hi : s.inputs with _ | ⟨x, rest⟩
  · cases hm : s.marked with
    | true => exact absurd ((step_marked hm (by simp [hi]) (by simp [hi])).symm.trans h) (hstop hm)
    | false =>
      cases ha : s.scanEn with
      | true => rw [step_idle_armed hm hi ha] at h; simp [h]
      | false =>
        rw [step_idle_disarmed hm hi ha] at h
        simp only [exec, execNop, Host.Outcome.next.injEq] at h
        simp [h]
  · cases x with
    | query d =>
      rw [step_query hi] at h
      simp only [exec, execEncode, Host.Outcome.next.injEq] at h
      simp [h]
    | reset =>
      rw [step_reset hi] at h
      simp only [Host.Outcome.next.injEq] at h
      simp [h]
    | host cmd =>
      cases hm : s.marked with
      | true => exact absurd ((step_marked hm (by simp [hi]) (by simp [hi])).symm.trans h) (hstop hm)
      | false =>
        cases hd : decodeHost cmd with
        | command i =>
          rw [step_host hm hi hd] at h
          exact .inl ⟨i, rest, rfl, ⟨cmd, rfl, hd⟩, h⟩
        | refuse r =>
          rw [step_host_refuse hm hi hd] at h
          exact .inr (.inl ⟨r, cmd, rest, rfl, rfl, hd, (Host.Outcome.next.inj h).symm⟩)
    | scan =>
      cases hm : s.marked with
      | true => exact absurd ((step_marked hm (by simp [hi]) (by simp [hi])).symm.trans h) (hstop hm)
      | false =>
        cases ha : s.scanEn with
        | true => rw [step_scan_armed hm hi ha] at h; simp [h]
        | false =>
          rw [step_scan_disarmed hm hi ha] at h
          simp_all

/-- The model's runs are the host's. -/
theorem runN_eq_run (n : Nat) (s : State) : runN n s = Sys2Proof.core.run n s := by
  induction n generalizing s with
  | zero => rfl
  | succ n ih =>
    simp only [runN, Host.Core.run, Sys2Proof.core]
    cases step s with
    | next t => exact ih t
    | fault r => rfl
    | refused r => rfl

end Sys2Proof.Machine
end

