-- ==== Sys2Proof/Tests/Slice0.lean ====
section
/-! SUPPORT. Small tests, one step each, with expected values from spec/95_test_vectors.md, and the witnesses of the
statements' hypotheses. -/

namespace Sys2Proof.Tests

open Sys2Proof.Machine

/-! ## Helpers -/

/-- The next state, if there is one. -/
def nextOf : Host.Outcome State Fault Refusal → Option State
  | .next s => some s
  | .fault _ => none
  | .refused _ => none

/-- After START. -/
def armed : State := { State.reset with scanEn := true }

/-- After PUBLISH 1007 and START (95_test_vectors.md P1, step 2). -/
def showing1007 : State := { armed with bank := #v[0, 1007], pub := 1 }

/-- The start state of 95_test_vectors.md V6. -/
def lit : State := { State.reset with out := ⟨0x3F, false, 0b0010⟩ }

/-- A state with a fault mark. -/
def faulted : State := { armed with fault := some (.concurrentOutputDrive, 0x2008C000) }

/-- A state with a refusal mark. -/
def refusing : State := { State.reset with refused := some (.zeroPeriod, 0x30000000) }

/-- `s` with inputs waiting. -/
def waiting (s : State) (l : List Input) : State := { s with inputs := l }

/-! ## Well-formedness and encoding -/

theorem test_wf_refuses_zero_period : (Instr.start 0).wf = false := by decide

theorem test_wf_accepts_period_bounds : (Instr.start 1).wf = true ∧ (Instr.start 65535).wf = true := by decide

-- Words written out bit by bit from 30_encoding.md rules R49 to R51 and R53.
theorem test_decode_nop : decodeHost 0b00000000000000000000000000000000#32 = .command .nop := by decide

theorem test_decode_digit_single :
    decodeHost 0b00100000000100011000000000000101#32 = .command (.digit 17 (.single 5) true) := by decide

theorem test_decode_digit_all : decodeHost 0b00100000000010001100000000000000#32 = .command (.digit 8 .all true) := by
  decide

theorem test_decode_start : decodeHost 0b00110000000000000000000000011110#32 = .command (.start 30) := by decide

theorem test_decode_stop : decodeHost 0b01000000000000000000000000000000#32 = .command .stop := by decide

theorem test_decode_publish : decodeHost 0b01010000000000001111111111111111#32 = .command (.publish 65535) := by decide

theorem test_decode_tick_code : decodeTableWord 32 0b00010000000000000000000000000000 = some .tick := by decide

theorem test_decode_encode_port : decodeTableWord 8 0b00011111 = some (.encode 31) := by decide

-- The refusals of 95_test_vectors.md V9.
theorem test_refuse_reserved_bits :
    [0x00000001#32, 0x20200000#32, 0x20000010#32, 0x3001001E#32, 0x400000FF#32, 0x50010000#32].map decodeHost =
      List.replicate 6 (.refuse .reservedBits) := by decide

theorem test_refuse_host_tick : decodeHost 0x10000000#32 = .refuse .hostTick ∧
    decodeHost 0x1FFFFFFF#32 = .refuse .hostTick := by decide

theorem test_refuse_reserved_opcode : decodeHost 0x60000000#32 = .refuse .reservedOpcode ∧
    decodeHost 0xF0000000#32 = .refuse .reservedOpcode := by decide

theorem test_refuse_all_with_index : decodeHost 0x2008C001#32 = .refuse .allWithIndex := by decide

theorem test_refuse_zero_period : decodeHost 0x30000000#32 = .refuse .zeroPeriod := by decide

-- 30_encoding.md rule R60.
theorem test_pseudo_words :
    [Pseudo.blankAt 2, .blankAll, .lampTest, .restart].map (fun p => encodeWord (expandPseudo p)) =
      [0x20100002, 0x20104000, 0x2008C000, 0x3000001E] := by decide

/-! ## Helper functions (95_test_vectors.md V2 to V4) -/

theorem test_digits_of_12345 : [3, 2, 1, 0].map (digitAt 12345) = [2, 3, 4, 5] := by decide

theorem test_digits_of_65535 : [3, 2, 1, 0].map (digitAt 65535) = [5, 5, 3, 5] := by decide

theorem test_point_positions : [3, 0, 1, 4].map (fun p => [3, 2, 1, 0].map (dpEnable p)) =
    [[true, false, false, false], [false, false, false, false], [false, false, true, false],
      [false, false, false, false]] := by decide

theorem test_next_cursor : [3, 2, 1, 0].map (nextCursor 4) = [2, 1, 0, 3] ∧ nextCursor 1 0 = 0 := by decide

/-! ## One step of each instruction -/

-- V1, all 17 entries.
theorem test_encode_default_table : (List.range 17).map (fun d => encodeDigit defaultGlyphs (BitVec.ofNat 5 d)) =
    [0x3F, 0x06, 0x5B, 0x4F, 0x66, 0x6D, 0x7D, 0x07, 0x7F, 0x6F, 0x77, 0x7C, 0x39, 0x5E, 0x79, 0x71, 0x00] := by
  decide

theorem test_encode_out_of_range : (nextOf (exec (.encode 31) State.reset)).map State.encOut = some 0x00 := by decide

theorem test_nop : nextOf (exec .nop showing1007) = some showing1007 := by decide

-- V5, third row.
theorem test_tick_thousands : (nextOf (exec .tick showing1007)).map (fun t => (t.out, t.cursor)) =
    some (⟨0x06, true, 0b1000⟩, 2) := by decide

-- V5, second row: the cursor wraps.
theorem test_tick_units : (nextOf (exec .tick { showing1007 with cursor := 0 })).map (fun t => (t.out, t.cursor)) =
    some (⟨0x07, false, 0b0001⟩, 3) := by decide

-- V6, fifth row: an index of no digit.
theorem test_digit_selects_nothing : (nextOf (exec (.digit 3 (.single 5) false) lit)).map State.out =
    some ⟨0x4F, false, 0b0000⟩ := by decide

-- V6, last line: out of range, but armed.
theorem test_digit_faults_while_armed : (nextOf (exec (.digit 17 (.single 0) false) armed)).map State.fault =
    some (some (.concurrentOutputDrive, 0x20110000)) := by decide

-- V7.
theorem test_start : (nextOf (exec (.start 1) armed)).map (fun t => (t.scanEn, t.periodMs, t.cursor)) =
    some (true, 1, 3) := by decide

theorem test_start_zero_refused : (nextOf (step (waiting State.reset [.host 0x30000000]))).map
    (fun t => (t.refused, t.scanEn)) = some (some (.zeroPeriod, 0x30000000), false) := by decide

theorem test_stop_keeps_digit : (nextOf (exec .stop { armed with out := ⟨0x3F, false, 0b0100⟩ })).map
    (fun t => (t.scanEn, t.out.sel)) = some (false, 0b0100) := by decide

-- V8, steps 1 and 2.
theorem test_publish_first : (nextOf (exec (.publish 1007) State.reset)).map (fun t => (t.bank, t.pub)) =
    some (#v[0, 1007], 1) := by decide

theorem test_publish_second : (nextOf (exec (.publish 2345) showing1007)).map (fun t => (t.bank, t.pub, t.sdv)) =
    some (#v[2345, 1007], 0, 2345) := by decide

-- 00_scope.md rule R13.
theorem test_pins : (lit.segPin 0, lit.segPin 6, lit.dpPin, lit.selPin true 1, lit.selPin false 1) =
    (false, true, true, false, true) := by decide

-- Each table row is what the next step runs after reset; TICK needs the timer armed.
theorem test_placed_tick_runs : (nextOf (step (State.reset.withFetchWord 32 0x10000000))).map State.out =
    some ⟨0x3F, true, 0b1000⟩ := by decide

theorem test_placed_query_runs : (nextOf (step (State.reset.withFetchWord 8 7))).map State.encOut = some 0x07 := by
  decide

/-! ## Witnesses: states and operands that meet the statements' hypotheses -/

theorem witness_EncodedInstructionDecodesBack : (Instr.start 1).wf = true ∧ (Instr.digit 31 (.single 15) true).wf = true ∧
    (Instr.encode 31).wf = true := by decide

theorem witness_DecodedWordIsTheEncoding :
    decodeHost 0x201F800F#32 = .command (.digit 31 (.single 15) true) ∧
    decodeHost 0x3000FFFF#32 = .command (.start 65535) := by decide

theorem witness_HostWordRefusedInOrder :
    [0x60000000#32, 0xFFFFFFFF#32, 0x1FFFFFFF#32, 0x0FFFFFFF#32, 0x40000000#32, 0x2FFFFFFF#32, 0x3FFFFFFF#32,
      0x5FFFFFFF#32].map (fun c => c.toNat / 2 ^ 28) = [6, 15, 1, 0, 4, 2, 3, 5] := by decide

theorem witness_StepRunsDecodedInstruction : (waiting faulted [.query 7]).inputs = [.query 7] ∧
    (waiting State.reset [.host 0x500003EF]).inputs = [.host 0x500003EF] ∧
    decodeHost 0x500003EF#32 = .command (.publish 1007) ∧
    (waiting armed [.scan]).inputs = [.scan] ∧ armed.scanEn = true ∧ armed.inputs = [] ∧ armed.fault = none ∧
    armed.refused = none := by decide

theorem witness_PlacedWordRunsNext : decodeTableWord 32 0x5000FFFF = some (.publish 65535) ∧
    decodeTableWord 32 0x10000000 = some .tick ∧ decodeTableWord 8 31 = some (.encode 31) := by decide

theorem witness_TickTakenExactlyWhenEnabled :
    (waiting armed [.scan]).inputs = .scan :: [] ∧ (armed.scanEn = true ∧ armed.fault = none ∧ armed.refused = none) ∧
    (waiting lit [.scan]).inputs = .scan :: [] ∧ lit.scanEn = false ∧
    (nextOf (step (waiting lit [.scan]))).isSome = true ∧ (1 : BitVec 16) ≠ 0 := by decide

theorem witness_MarkedStateIsQuiescent : faulted.fault = some (.concurrentOutputDrive, 0x2008C000) ∧
    refusing.fault = none ∧ refusing.refused = some (.zeroPeriod, 0x30000000) ∧ faulted.inputs = [] ∧
    refusing.inputs = [] := by decide

theorem witness_MarksAreSticky : exec .nop faulted = .next faulted ∧ faulted.fault ≠ none ∧
    step (waiting refusing [.query 3]) = .next { refusing with encIn := 3 } ∧ refusing.refused ≠ none :=
  ⟨rfl, by decide, rfl, by decide⟩

theorem witness_RefusalMarksOnceAndStops : (waiting State.reset [.host 0x60000000]).inputs = [.host 0x60000000] ∧
    State.reset.fault = none ∧ State.reset.refused = none ∧ decodeHost 0x60000000#32 = .refuse .reservedOpcode := by
  decide

theorem witness_TickShowsTheDigitUnderTheCursor : (waiting lit [.scan]).inputs = .scan :: [] ∧
    (lit.scanEn = false ∨ lit.fault ≠ none ∨ lit.refused ≠ none) ∧ (nextOf (step (waiting lit [.scan]))).isSome = true := by
  decide

theorem witness_ArmedBlockEventuallyTicks : armed.scanEn = true ∧ armed.fault = none ∧ armed.refused = none ∧
    ∀ x ∈ (waiting armed [.host 0x500003EF]).inputs,
      ∃ cmd i, x = .host cmd ∧ decodeHost cmd = .command i ∧ i ≠ .stop ∧ ∀ v t e, i ≠ .digit v t e := by
  refine ⟨rfl, rfl, rfl, fun x hx => ⟨0x500003EF, .publish 1007, ?_, by decide, by decide, by simp⟩⟩
  simpa [waiting] using hx

theorem witness_ResetWorksFromAnyState : (waiting faulted [.reset, .scan]).inputs = .reset :: [.scan] := by decide

theorem witness_EncodeAnswersTheTable : State.reset.glyphs = defaultGlyphs ∧ 16 ≤ (16 : DigitIn).toNat ∧
    16 ≤ (31 : DigitIn).toNat := by decide

theorem witness_NopLeavesTheState : (0x00000000#32).toNat / 2 ^ 28 = 0 ∧ (0x0FFFFFFF#32).toNat / 2 ^ 28 = 0 := by decide

theorem witness_DigitDrivesTheOutputs : lit.scanEn = false ∧
    16 < (17 : DigitIn).toNat ∧ (16 : DigitIn).toNat ≤ 16 ∧ 4 ≤ (4 : BitVec 4).toNat ∧ 4 ≤ (15 : BitVec 4).toNat := by
  decide

theorem witness_DigitWhileArmedFaultsAndStops : faulted.scanEn = true ∧ faulted.fault ≠ none ∧ armed.fault = none ∧ armed.refused = none ∧ armed.scanEn = true ∧
    (waiting armed [.host 0x20110000]).inputs = [.host 0x20110000] ∧
    decodeHost 0x20110000#32 = .command (.digit 17 (.single 0) false) := by decide

theorem witness_StartArmsTheTimer : (1 : BitVec 16) ≠ 0 ∧ (65535 : BitVec 16) ≠ 0 ∧
    (0x30000000#32).toNat / 2 ^ 28 = 3 ∧ (0x3001001E#32).toNat / 2 ^ 28 = 3 ∧ (0x3000FFFF#32).toNat / 2 ^ 28 = 3 := by
  decide

theorem witness_ZeroPeriodTermIsRefused : State.reset.refused = none ∧ refusing.refused ≠ none := by decide

theorem witness_StopDisarmsTheTimer : State.reset.scanEn = false ∧ (0x40000000#32).toNat / 2 ^ 28 = 4 ∧
    (0x4FFFFFFF#32).toNat / 2 ^ 28 = 4 := by decide

theorem witness_PublishReplacesTheValue : (1007 : Value) = showing1007.sdv ∧ (0x500003EF#32).toNat / 2 ^ 28 = 5 ∧
    (0x50010000#32).toNat / 2 ^ 28 = 5 := by decide

theorem witness_OnlyTheOwnersWrite : exec .stop armed = .next { armed with scanEn := false } ∧
    exec (.publish 1007) State.reset = .next { State.reset with bank := #v[0, 1007], pub := 1 } := ⟨rfl, rfl⟩

/-- After one TICK of 0 from reset: one digit is lit. -/
def oneTick : State :=
  { armed with
    cursor := 2, out := ⟨0x3F, true, 0b1000⟩
    events := [⟨.scan, .tick, .deselectAll⟩, ⟨.scan, .tick, .setSeg 0x3F⟩, ⟨.scan, .tick, .setDp true⟩,
      ⟨.scan, .tick, .select 3⟩] }

theorem witness_EveryOperationCompletes : State.reset.fault = none ∧ State.reset.refused = none := by decide

theorem witness_EventsAreAppendedAndApplied : nextOf (exec .tick armed) = some oneTick := by decide

/-- Every boundary of a list is one of its takes. -/
theorem boundary_eq_take {es later l : List EventRecord} (h : l = es ++ later) : ∃ n < l.length + 1, es = l.take n :=
  ⟨es.length, by simp [h], by simp [h]⟩

theorem witness_EveryStepKeepsMuxInvariant : MuxInvariant oneTick ∧ (nextOf (step oneTick)).isSome = true := by
  refine ⟨⟨by decide, fun es later h hd => ?_⟩, by decide⟩
  obtain ⟨n, hn, rfl⟩ := boundary_eq_take h
  have hl : oneTick.events.length = 4 := by decide
  rw [hl] at hn
  intro j k
  interval_cases n <;> revert j k <;> decide

theorem witness_EveryStepKeepsGhostFree : GhostFree oneTick ∧ (nextOf (step oneTick)).isSome = true := by
  refine ⟨fun es r later h hr => ?_, by decide⟩
  simp only [oneTick] at h
  rcases es with _ | ⟨a, _ | ⟨b, _ | ⟨c, _ | ⟨d, es⟩⟩⟩⟩ <;> simp at h
  · obtain ⟨rfl, -⟩ := h; simp at hr
  · obtain ⟨rfl, rfl, -⟩ := h; decide
  · obtain ⟨rfl, rfl, rfl, -⟩ := h; decide
  · obtain ⟨rfl, rfl, rfl, rfl, -⟩ := h; simp at hr

theorem witness_EveryStepKeepsPeriodLegal : armed.periodMs ≠ 0 ∧ (nextOf (step armed)).isSome = true := by decide

theorem witness_CursorIsPeriodic : showing1007.scanEn = true ∧ showing1007.fault = none ∧ showing1007.refused = none ∧
    showing1007.inputs = [] := by decide

theorem witness_OneFrameShowsFourDigits : showing1007.cursor = 3 ∧ showing1007.scanEn = true ∧
    showing1007.fault = none ∧ showing1007.refused = none ∧ showing1007.inputs = [] := by decide

theorem witness_ValuesWrapOnTheDisplay :
    ({ armed with bank := #v[2345, 0] } : State).sdv.toNat =
      ({ armed with bank := #v[12345, 0] } : State).sdv.toNat % 10000 ∧
    (nextOf (exec .tick { armed with bank := #v[12345, 0] })).isSome = true ∧
    (nextOf (exec .tick { armed with bank := #v[2345, 0] })).isSome = true := by decide

theorem witness_StoppedDisplayHolds : lit.scanEn = false ∧
    quietInputs (waiting lit [.host 0x500003EF, .scan, .query 7]).inputs ∧
    (nextOf (runN 1 (waiting lit [.host 0x500003EF, .scan, .query 7]))).isSome = true := by
  refine ⟨rfl, ?_, by decide⟩
  intro x hx
  simp only [waiting, List.mem_cons, List.not_mem_nil, or_false] at hx
  rcases hx with rfl | rfl | rfl <;> refine ⟨by simp, fun cmd h => ?_⟩
  · cases h
    intro i hi
    have : i = .publish 1007 := by
      have hd : decodeHost 0x500003EF#32 = .command (.publish 1007) := by decide
      exact (Decoded.command.inj (hd.symm.trans hi)).symm
    subst this
    simp
  · cases h
  · cases h

theorem witness_SettledStateStaysSettled : (waiting lit [.scan]).settled ∧
    (nextOf (step (waiting lit [.scan]))).isSome = true :=
  ⟨⟨by simp [waiting], rfl, rfl, rfl⟩, by decide⟩

theorem witness_CellIsOneRegister : (nextOf (step (waiting showing1007 [.host 0x50000929]))).isSome = true ∧
    (nextOf (step (waiting showing1007 [.reset]))).isSome = true ∧ (nextOf (step showing1007)).isSome = true := by decide

theorem witness_BackBankIsUnobservable :
    SameButBanks showing1007 { showing1007 with bank := #v[1007, 555], pub := 0 } := ⟨rfl, rfl⟩

theorem witness_LastPublishWins : armed.scanEn = true ∧ armed.fault = none ∧ armed.refused = none ∧
    (waiting armed [.host 0x500003EF, .host 0x50000929, .scan]).inputs =
      ([1007].map fun v => Input.host (encodeWord (.publish v))) ++
        .host (encodeWord (.publish 2345)) :: .scan :: [] := by decide

end Sys2Proof.Tests
end

section
/-! PROOFS. The physical level of each output pin (00_scope.md rule R13). -/

namespace Sys2Proof.Machine

/-! ## The level of a line of each polarity -/

@[simp] theorem pinLevel_activeLow (logical : Bool) : pinLevel true logical = !logical :=
  Bool.xor_true logical

@[simp] theorem pinLevel_activeHigh (logical : Bool) : pinLevel false logical = logical :=
  Bool.xor_false logical

/-! ## The pins -/

theorem State.segPin_eq_not (s : State) (k : Fin 7) : s.segPin k = !(s.out.seg.getLsbD k) :=
  pinLevel_activeLow _

theorem State.dpPin_eq_not (s : State) : s.dpPin = !s.out.dp :=
  pinLevel_activeLow _

theorem State.selPin_eq_ite (s : State) (selActiveLow : Bool) (k : Fin 4) :
    s.selPin selActiveLow k = (if selActiveLow then !(s.out.sel.getLsbD k) else s.out.sel.getLsbD k) := by
  cases selActiveLow with
  | true => exact pinLevel_activeLow _
  | false => exact pinLevel_activeHigh _

/-- Settles O38: the segment lines are active-low (rule R7), and a select line is taken at each polarity. -/
theorem pinsFollowThePolarity : Obligations.PinsFollowThePolarity :=
  fun s selActiveLow => ⟨s.segPin_eq_not, s.dpPin_eq_not, s.selPin_eq_ite selActiveLow⟩

end Sys2Proof.Machine
end

section
/-! PROOFS. The state right after reset (10_state.md rule R33). -/

namespace Sys2Proof.Machine

/-! ## State.reset, field by field -/

@[simp] theorem State.reset_cursor : State.reset.cursor = 3 := rfl
@[simp] theorem State.reset_scanEn : State.reset.scanEn = false := rfl
@[simp] theorem State.reset_periodMs : State.reset.periodMs = 30 := rfl
@[simp] theorem State.reset_out : State.reset.out = ⟨0, false, 0⟩ := rfl
@[simp] theorem State.reset_bank : State.reset.bank = Vector.replicate 2 0 := rfl
@[simp] theorem State.reset_pub : State.reset.pub = 0 := rfl
@[simp] theorem State.reset_fault : State.reset.fault = none := rfl
@[simp] theorem State.reset_refused : State.reset.refused = none := rfl
@[simp] theorem State.reset_events : State.reset.events = [] := rfl

/-- The last sentence of 10_state.md rule R33: it does not matter which bank is published. -/
theorem State.sdv_eq_zero_of_bank {s : State} (h : s.bank = Vector.replicate 2 0) : s.sdv = 0 := by
  simp [State.sdv, h]

/-- Settles O12: SDV reads a bank, and both banks are 0; every other value is a field of the reset state. -/
theorem resetLeavesTheTable : Obligations.ResetLeavesTheTable := by
  have hsdv : State.reset.sdv = 0 := State.sdv_eq_zero_of_bank State.reset_bank
  simp [Obligations.ResetLeavesTheTable, hsdv]

end Sys2Proof.Machine
end

section
/-! PROOFS. The decoder of the host command port, in the terms of the opcode table (30_encoding.md rules R47 to R57). -/

namespace Sys2Proof

/-! ## What each format's decoder answers, by the masks of its reserved bits -/

section FormatDecoders
variable (cmd : Word)

/-- A check that all bits under `mask` are clear fails exactly when one of them is set. -/
theorem not_clear_iff_ne_zero {clear : Bool} {mask : Word} (h : clear = true ↔ cmd &&& mask = 0) :
    (!clear) = true ↔ cmd &&& mask ≠ 0 := by
  rw [Bool.not_eq_true', ← Bool.not_eq_true, h]

theorem decodeBare_eq_ite (i : Instr) :
    decodeBare cmd i = if cmd &&& 0x0FFFFFFF ≠ 0 then .refuse .reservedBits else .command i :=
  if_congr (not_clear_iff_ne_zero cmd (formatZClear_iff cmd)) rfl rfl

theorem decodePublish_eq_ite : decodePublish cmd =
    if cmd &&& 0x0FFF0000 ≠ 0 then .refuse .reservedBits else .command (.publish (BitVec.ofNat 16 cmd.toNat)) := by
  rw [← immField_eq]
  exact if_congr (not_clear_iff_ne_zero cmd (formatPClear_iff cmd)) rfl rfl

theorem immField_eq_zero_iff : immField cmd = 0 ↔ cmd.toNat % 2 ^ 16 = 0 := by
  rw [immField_eq, ← BitVec.toNat_inj, BitVec.toNat_ofNat]; rfl

theorem decodeStart_eq_ite : decodeStart cmd =
    if cmd &&& 0x0FFF0000 ≠ 0 then .refuse .reservedBits
    else if cmd.toNat % 2 ^ 16 = 0 then .refuse .zeroPeriod
    else .command (.start (BitVec.ofNat 16 cmd.toNat)) := by
  rw [← immField_eq]
  exact if_congr (not_clear_iff_ne_zero cmd (formatPClear_iff cmd)) rfl
    (if_congr (immField_eq_zero_iff cmd) rfl rfl)

theorem idxField_eq_zero_iff : idxField cmd = 0 ↔ cmd.toNat % 2 ^ 4 = 0 := by
  rw [idxField_eq, ← BitVec.toNat_inj, BitVec.toNat_ofNat]; rfl

theorem allWithIndex_iff : (allField cmd && idxField cmd != 0) = true ↔
    cmd.getLsbD 14 = true ∧ cmd.toNat % 2 ^ 4 ≠ 0 := by
  rw [Bool.and_eq_true, bne_iff_ne, ne_eq, idxField_eq_zero_iff, allField]

theorem decodeDigit_eq_ite : decodeDigit cmd =
    if cmd &&& 0x0FE03FF0 ≠ 0 then .refuse .reservedBits
    else if cmd.getLsbD 14 = true ∧ cmd.toNat % 2 ^ 4 ≠ 0 then .refuse .allWithIndex
    else .command (.digit (BitVec.ofNat 5 (cmd.toNat / 2 ^ 16))
      (if cmd.getLsbD 14 = true then .all else .single (BitVec.ofNat 4 cmd.toNat)) (cmd.getLsbD 15)) := by
  rw [← valField_eq, ← idxField_eq]
  exact if_congr (not_clear_iff_ne_zero cmd (formatDClear_iff cmd)) rfl (if_congr (allWithIndex_iff cmd) rfl rfl)

end FormatDecoders

/-! ## Which decoder OP selects (rule R47) -/

section OpSelects
variable {cmd : Word}

theorem opField_of_div {n : Nat} (h : cmd.toNat / 2 ^ 28 = n) : opField cmd = BitVec.ofNat 4 n :=
  (opField_eq_iff cmd (by have := cmd.isLt; omega)).2 h

theorem decodeHost_of_reserved_op (h : 6 ≤ cmd.toNat / 2 ^ 28) : decodeHost cmd = .refuse .reservedOpcode :=
  if_pos (by rwa [opField_toNat])

theorem decodeHost_of_tick_op (h : cmd.toNat / 2 ^ 28 = 1) : decodeHost cmd = .refuse .hostTick := by
  simp [decodeHost, opField_of_div h]

theorem decodeHost_of_nop_op (h : cmd.toNat / 2 ^ 28 = 0) : decodeHost cmd = decodeBare cmd .nop := by
  simp [decodeHost, opField_of_div h]

theorem decodeHost_of_stop_op (h : cmd.toNat / 2 ^ 28 = 4) : decodeHost cmd = decodeBare cmd .stop := by
  simp [decodeHost, opField_of_div h]

theorem decodeHost_of_digit_op (h : cmd.toNat / 2 ^ 28 = 2) : decodeHost cmd = decodeDigit cmd := by
  simp [decodeHost, opField_of_div h]

theorem decodeHost_of_start_op (h : cmd.toNat / 2 ^ 28 = 3) : decodeHost cmd = decodeStart cmd := by
  simp [decodeHost, opField_of_div h]

theorem decodeHost_of_publish_op (h : cmd.toNat / 2 ^ 28 = 5) : decodeHost cmd = decodePublish cmd := by
  simp [decodeHost, opField_of_div h]

end OpSelects

/-- Settles O3: OP selects one format's decoder, and that decoder's reserved fields are the table's masks. -/
theorem hostWordRefusedInOrder : Obligations.HostWordRefusedInOrder := fun cmd =>
  ⟨decodeHost_of_reserved_op,
    decodeHost_of_tick_op,
    fun h => (decodeHost_of_nop_op h).trans (decodeBare_eq_ite cmd .nop),
    fun h => (decodeHost_of_stop_op h).trans (decodeBare_eq_ite cmd .stop),
    fun h => (decodeHost_of_digit_op h).trans (decodeDigit_eq_ite cmd),
    fun h => (decodeHost_of_start_op h).trans (decodeStart_eq_ite cmd),
    fun h => (decodeHost_of_publish_op h).trans (decodePublish_eq_ite cmd)⟩

end Sys2Proof
end

section
/-! PROOFS. The words of START and STOP as arithmetic, and what START and STOP do (41_scanner.md rules R73, R74). -/

namespace Sys2Proof

/-! ## Words without an operand -/

section OperandFreeWords
variable {cmd : Word}

theorem formatZ_clear_iff_mod : cmd &&& 0x0FFFFFFF = 0 ↔ cmd.toNat % 2 ^ 28 = 0 := by
  rw [← formatZClear_iff, formatZClear, beq_iff_eq, ← BitVec.toNat_inj, BitVec.extractLsb'_toNat]
  rfl

theorem formatP_clear_iff_mod : cmd &&& 0x0FFF0000 = 0 ↔ cmd.toNat / 2 ^ 16 % 2 ^ 12 = 0 := by
  rw [← formatPClear_iff, formatPClear, beq_iff_eq, ← BitVec.toNat_inj, BitVec.extractLsb'_toNat,
    Nat.shiftRight_eq_div_pow]
  rfl

/-- A word of format Z is accepted for one value only: OP, then 28 zeros. -/
theorem formatZ_clear_iff_eq {n : Nat} (h : cmd.toNat / 2 ^ 28 = n) :
    cmd &&& 0x0FFFFFFF = 0 ↔ cmd = BitVec.ofNat 32 (n * 2 ^ 28) := by
  have := cmd.isLt
  rw [formatZ_clear_iff_mod, ← BitVec.toNat_inj, BitVec.toNat_ofNat]
  omega

theorem decodeBare_of_op {n : Nat} (h : cmd.toNat / 2 ^ 28 = n) (i : Instr) :
    decodeBare cmd i = if cmd = BitVec.ofNat 32 (n * 2 ^ 28) then .command i else .refuse .reservedBits := by
  rw [decodeBare_eq_ite, ite_not]
  exact if_congr (formatZ_clear_iff_eq h) rfl rfl

/-- A word of format P with its reserved bits clear has operand 0 for one value only. -/
theorem formatP_operand_eq_zero_iff {n : Nat} (h : cmd.toNat / 2 ^ 28 = n) (hp : cmd &&& 0x0FFF0000 = 0) :
    cmd.toNat % 2 ^ 16 = 0 ↔ cmd = BitVec.ofNat 32 (n * 2 ^ 28) := by
  have := cmd.isLt
  rw [formatP_clear_iff_mod] at hp
  rw [← BitVec.toNat_inj, BitVec.toNat_ofNat]
  omega

theorem decodeHost_start_word (h : cmd.toNat / 2 ^ 28 = 3) : decodeHost cmd =
    if cmd &&& 0x0FFF0000 ≠ 0 then .refuse .reservedBits
    else if cmd = 0x30000000 then .refuse .zeroPeriod else .command (.start (BitVec.ofNat 16 cmd.toNat)) := by
  rw [decodeHost_of_start_op h, decodeStart_eq_ite]
  refine ite_congr rfl (fun _ => rfl) fun hp => ?_
  exact if_congr (formatP_operand_eq_zero_iff h (not_ne_iff.1 hp)) rfl rfl

theorem decodeHost_stop_word (h : cmd.toNat / 2 ^ 28 = 4) :
    decodeHost cmd = if cmd = 0x40000000 then .command .stop else .refuse .reservedBits :=
  (decodeHost_of_stop_op h).trans (decodeBare_of_op h .stop)

end OperandFreeWords

end Sys2Proof

namespace Sys2Proof.Machine

/-! ## The scan timer -/

theorem exec_start {p : BitVec 16} (hp : p ≠ 0) (s : State) : exec (.start p) s = .next (s.arm p) :=
  if_neg hp

theorem exec_stop (s : State) : exec .stop s = .next s.disarm := rfl

theorem State.disarm_eq_self {s : State} (h : s.scanEn = false) : s.disarm = s := by
  rw [State.disarm, ← h]

/-- Settles O19: `arm` is the whole effect, and format P holds the period, which is 0 in one word only. -/
theorem startArmsTheTimer : Obligations.StartArmsTheTimer :=
  ⟨fun _ s hp => exec_start hp s, fun _ h => decodeHost_start_word h⟩

/-- Settles O21: `disarm` is the whole effect, and format Z leaves STOP one word. -/
theorem stopDisarmsTheTimer : Obligations.StopDisarmsTheTimer :=
  ⟨exec_stop, fun s h => (exec_stop s).trans (congrArg _ (State.disarm_eq_self h)), fun _ h => decodeHost_stop_word h⟩

end Sys2Proof.Machine
end

section
/-! PROOFS. What TICK and DIGIT show (41_scanner.md rules R66 to R70, R72 and R79). -/

namespace Sys2Proof.Machine

/-! ## The latches after an output sequence -/

theorem segmentsOf_eq_setWidth (glyphs : Config.Glyphs) (d : DigitIn) :
    segmentsOf glyphs d = (encodeDigit glyphs d).setWidth 7 :=
  (BitVec.setWidth_eq_extractLsb' (by decide)).symm

section Sequence
variable (l : Latches) (a : Agent) (op : Operation) (p : BitVec 7) (t : Target) (e : Bool)

@[simp] theorem replay_sequence_seg : (replay l (tagged a op (sequenceEvents p t e))).seg = p := by
  rw [replay_sequence]

@[simp] theorem replay_sequence_dp : (replay l (tagged a op (sequenceEvents p t e))).dp = e := by
  rw [replay_sequence]

theorem replay_sequence_sel_all : (replay l (tagged a op (sequenceEvents p .all e))).sel = 0b1111 := by
  rw [replay_sequence]

theorem replay_sequence_sel_none {i : BitVec 4} (hi : 4 ≤ i.toNat) :
    (replay l (tagged a op (sequenceEvents p (.single i) e))).sel = 0 := by
  rw [replay_sequence]
  exact if_neg (Nat.not_lt.2 hi)

/-- An index of 4 or more is no digit's position, so nothing is selected there either (rule R79). -/
theorem replay_sequence_onlySelected (i : BitVec 4) :
    (replay l (tagged a op (sequenceEvents p (.single i) e))).onlySelected i.toNat := by
  by_cases hi : i.toNat < 4
  · refine onlySelected_shift hi ?_
    rw [replay_sequence]
    exact if_pos hi
  · have hi := Nat.not_lt.1 hi
    intro j
    have hj : j.val ≠ i.toNat := by omega
    simp [replay_sequence_sel_none l a op p e hi, hj]

theorem tagged_sequenceEvents : tagged a op (sequenceEvents p t e) =
    [⟨a, op, .deselectAll⟩, ⟨a, op, .setSeg p⟩, ⟨a, op, .setDp e⟩] ++ tagged a op (selectEvents t) := rfl

end Sequence

theorem selectEvents_single {i : BitVec 4} (hi : i.toNat < 4) : selectEvents (.single i) = [.select ⟨i.toNat, hi⟩] :=
  dif_pos hi

/-! ## DIGIT while disarmed -/

theorem exec_digit_disarmed {s : State} (h : s.scanEn = false) (value : DigitIn) (target : Target) (dpEn : Bool) :
    exec (.digit value target dpEn) s = .next (s.displaySeq .host .digit value target dpEn) := by
  simp [exec, execDigit, h]

/-- Settles O17: DIGIT is one output sequence, whose events fix the latches whatever they were. -/
theorem digitDrivesTheOutputs : Obligations.DigitDrivesTheOutputs := by
  intro value target dpEn s hs
  rw [exec_digit_disarmed hs]
  refine ⟨fun hv => congrArg _ (displaySeq_outOfRange s _ _ target dpEn hv), fun hv => ⟨_, rfl, ?_⟩⟩
  rw [displaySeq_inRange s _ _ target dpEn hv]
  refine ⟨rfl, ?_, replay_sequence_dp .., ?_, ?_, ?_, ?_⟩
  · rw [replay_sequence_seg, segmentsOf_eq_setWidth]
  · rintro rfl; exact replay_sequence_sel_all ..
  · rintro i rfl; exact replay_sequence_onlySelected _ _ _ _ _ i
  · rintro i rfl hi; exact replay_sequence_sel_none _ _ _ _ _ hi
  · rw [replay_sequence_seg, tagged_sequenceEvents, List.append_assoc]

/-! ## TICK -/

theorem digitAt_toNat_ofNat (v : Value) (c : Nat) : (BitVec.ofNat 5 (digitAt v c)).toNat = digitAt v c :=
  Nat.mod_eq_of_lt (by have := digitAt_le_nine v c; omega)

theorem position_toNat_ofNat {c : Nat} (hc : c < 4) : (BitVec.ofNat 4 c).toNat = c :=
  Nat.mod_eq_of_lt (by omega)

/-- TICK appends its events, leaves the latches they leave, and moves the cursor: nothing else (rule R69). -/
theorem exec_tick (s : State) : exec .tick s = .next
    { s with
      cursor := BitVec.ofNat 2 (nextCursor 4 s.cursor.toNat)
      out := replay s.out (tickEvents s.glyphs s.sdv.toNat s.cursor.toNat)
      events := s.events ++ tickEvents s.glyphs s.sdv.toNat s.cursor.toNat } := by
  have hd : (BitVec.ofNat 5 (digitAt s.sdv s.cursor.toNat)).toNat ≤ 16 :=
    (digitAt_toNat_ofNat ..).trans_le ((digitAt_le_nine ..).trans (by decide))
  have he : dpEnable Config.dpPos s.cursor.toNat = (s.cursor.toNat == 3) := Bool.and_true _
  rw [exec, execTick, displaySeq_inRange s _ _ _ _ hd, he]
  rfl

/-- The four events of a TICK at a cursor position, in order (rules R69, R70). -/
theorem tickEvents_eq (glyphs : Config.Glyphs) (v : Nat) {c : Nat} (hc : c < 4) : tickEvents glyphs v c =
    [⟨.scan, .tick, .deselectAll⟩, ⟨.scan, .tick, .setSeg (segmentsOf glyphs (BitVec.ofNat 5 (v / 10 ^ c % 10)))⟩,
      ⟨.scan, .tick, .setDp (c == 3)⟩, ⟨.scan, .tick, .select ⟨c, hc⟩⟩] := by
  have hi := position_toNat_ofNat hc
  rw [tickEvents, tagged_sequenceEvents, selectEvents_single (hi.trans_lt hc)]
  simp [tagged, hi]

theorem replay_tickEvents_onlySelected (l : Latches) (glyphs : Config.Glyphs) (v : Nat) {c : Nat} (hc : c < 4) :
    (replay l (tickEvents glyphs v c)).onlySelected c := by
  have h := replay_sequence_onlySelected l .scan .tick (segmentsOf glyphs (BitVec.ofNat 5 (v / 10 ^ c % 10))) (c == 3)
    (BitVec.ofNat 4 c)
  rwa [position_toNat_ofNat hc] at h

theorem nextCursor_toNat (c : BitVec 2) :
    (BitVec.ofNat 2 (nextCursor 4 c.toNat)).toNat = if c.toNat = 0 then 3 else c.toNat - 1 :=
  Nat.mod_eq_of_lt (nextCursor_lt (by decide) c.isLt)

/-! ## An expiry that finds TICK not enabled -/

theorem stopOutcome_ne_next {s t : State} (hm : s.marked = true) : stopOutcome s ≠ .next t := by
  unfold stopOutcome
  split
  · exact nofun
  · exact nofun
  · next hf hr => simp [marked_eq_false.2 ⟨hf, hr⟩] at hm

/-- At a marked state the expiry has no next state; while disarmed it is only taken from the waiting inputs (rule R92). -/
theorem step_scan_not_enabled {s u : State} {rest : List Input} (hi : s.inputs = .scan :: rest)
    (hn : s.scanEn = false ∨ s.fault ≠ none ∨ s.refused ≠ none) (h : step s = .next u) : u = s.consume rest := by
  cases hm : s.marked with
  | true => exact absurd ((step_marked hm (by simp [hi]) (by simp [hi])).symm.trans h) (stopOutcome_ne_next hm)
  | false =>
    obtain ⟨hf, hr⟩ := marked_eq_false.1 hm
    have ha : s.scanEn = false := by simpa [hf, hr] using hn
    exact (Host.Outcome.next.inj ((step_scan_disarmed hm hi ha).symm.trans h)).symm

/-- Settles O16: TICK is one output sequence of the digit under the cursor, then the cursor's move. -/
theorem tickShowsTheDigitUnderTheCursor : Obligations.TickShowsTheDigitUnderTheCursor := by
  intro s
  have hc : s.cursor.toNat < 4 := s.cursor.isLt
  have hd := digitAt_toNat_ofNat s.sdv s.cursor.toNat
  refine ⟨_, exec_tick s, ⟨BitVec.ofNat 5 (digitAt s.sdv s.cursor.toNat), hd, hd.trans_le (digitAt_le_nine ..), ?_,
    ⟨s.cursor.toNat, hc⟩, rfl, ?_⟩, replay_sequence_dp .., replay_tickEvents_onlySelected _ _ _ hc,
    nextCursor_toNat s.cursor, rfl, ?_⟩
  · exact (replay_sequence_seg ..).trans (segmentsOf_eq_setWidth ..)
  · simp [tickEvents_eq s.glyphs s.sdv.toNat hc, Latches.apply]
  · intro rest u hi hn hu
    rw [step_scan_not_enabled hi hn hu]
    exact ⟨rfl, rfl, rfl⟩

end Sys2Proof.Machine
end

section
/-! PROOFS. What PUBLISH and NOP do, and the words they are read from (42_handoff.md rules R83, R87 and R88). -/

namespace Sys2Proof

section HandoffWords
variable {cmd : Word}

theorem decodeHost_publish_word (h : cmd.toNat / 2 ^ 28 = 5) : decodeHost cmd =
    if cmd &&& 0x0FFF0000 ≠ 0 then .refuse .reservedBits else .command (.publish (BitVec.ofNat 16 cmd.toNat)) :=
  (decodeHost_of_publish_op h).trans (decodePublish_eq_ite cmd)

theorem decodeHost_nop_word (h : cmd.toNat / 2 ^ 28 = 0) :
    decodeHost cmd = if cmd = 0 then .command .nop else .refuse .reservedBits :=
  (decodeHost_of_nop_op h).trans (decodeBare_of_op h .nop)

end HandoffWords

end Sys2Proof

namespace Sys2Proof.Machine

/-! ## The hand-off cell -/

theorem exec_publish (data : Value) (s : State) : exec (.publish data) s = .next (s.handoffWrite data) := rfl

theorem State.back_val (s : State) : s.back.val = 1 - s.pub.val :=
  Fin.sub_val_of_le (Fin.le_last s.pub)

/-- A hand-off flips `pub`, whatever value it publishes (rule R87). -/
theorem handoffWrite_pub_ne (s : State) (data : Value) : (s.handoffWrite data).pub ≠ s.pub :=
  Fin.ne_of_val_ne (back_ne_pub s)

/-- Settles O22: `handoffWrite` is the whole effect, and format P holds the value. -/
theorem publishReplacesTheValue : Obligations.PublishReplacesTheValue := by
  refine ⟨fun data s => ⟨s.handoffWrite data, exec_publish data s, sdv_handoffWrite s data, s.back_val,
    handoffWrite_back s data, fun hd => ?_, rfl⟩, fun _ h => decodeHost_publish_word h⟩
  exact ⟨(sdv_handoffWrite s data).trans hd, handoffWrite_pub_ne s data⟩

/-! ## The idle command -/

theorem exec_nop (s : State) : exec .nop s = .next s := rfl

/-- Settles O15: NOP hands on the state it is given, and format Z leaves it one word. -/
theorem nopLeavesTheState : Obligations.NopLeavesTheState :=
  ⟨exec_nop, fun _ h => decodeHost_nop_word h⟩

end Sys2Proof.Machine
end

section
/-! PROOFS. When an expiry is a TICK, and which instructions move the enable (60_exceptions.md rule R92). -/

namespace Sys2Proof.Machine

/-- Settles O7: an enabled expiry runs TICK, any other is only taken from the waiting inputs; `arm` and `disarm` are the
enable. -/
theorem tickTakenExactlyWhenEnabled : Obligations.TickTakenExactlyWhenEnabled := by
  refine fun s => ⟨fun rest hi => ⟨fun ⟨ha, hf, hr⟩ => ?_, fun hn t ht => ?_⟩, ⟨_, exec_tick s, rfl, rfl, rfl⟩,
    ⟨_, exec_stop s, rfl⟩, fun p hp => ⟨_, exec_start hp s, rfl⟩⟩
  · exact step_scan_armed (marked_eq_false.2 ⟨hf, hr⟩) hi ha
  · rw [step_scan_not_enabled hi hn ht]
    exact ⟨rfl, rfl, rfl, rfl, rfl⟩

end Sys2Proof.Machine
end

section
/-! PROOFS. The bits of an instruction as the sum of its fields, and the way through the encoder and the decoders and back
(30_encoding.md sections 1 to 4). -/

namespace Sys2Proof

/-! ## The bits of an instruction as a sum of its fields -/

theorem place_toNat {w : Nat} (v : BitVec w) {lo : Nat} (h : lo + w ≤ 32) :
    (place v lo).toNat = v.toNat * 2 ^ lo := by
  have hv := v.isLt
  have hp : v.toNat * 2 ^ lo < 2 ^ 32 := calc
    v.toNat * 2 ^ lo < 2 ^ w * 2 ^ lo := Nat.mul_lt_mul_of_pos_right hv (Nat.two_pow_pos lo)
    _ = 2 ^ (lo + w) := by rw [← Nat.pow_add, Nat.add_comm]
    _ ≤ 2 ^ 32 := Nat.pow_le_pow_right (by decide) h
  have hv32 : v.toNat < 2 ^ 32 := hv.trans_le (Nat.pow_le_pow_right (by decide) (by omega))
  rw [place, BitVec.toNat_shiftLeft, BitVec.toNat_setWidth, Nat.mod_eq_of_lt hv32, Nat.shiftLeft_eq,
    Nat.mod_eq_of_lt hp]

/-- A field placed below all set bits of a word is added to it. -/
theorem or_place_toNat {x : Word} {w : Nat} (v : BitVec w) {lo : Nat} (h : lo + w ≤ 32)
    (hx : x.toNat % 2 ^ (lo + w) = 0) : (x ||| place v lo).toNat = x.toNat + v.toNat * 2 ^ lo := by
  have hlt : v.toNat * 2 ^ lo < 2 ^ (lo + w) := by
    rw [Nat.add_comm, Nat.pow_add]
    exact Nat.mul_lt_mul_of_pos_right v.isLt (Nat.two_pow_pos lo)
  obtain ⟨k, hk⟩ := Nat.dvd_of_mod_eq_zero hx
  rw [BitVec.toNat_or, place_toNat v h, hk, Nat.two_pow_add_eq_or_of_lt hlt]

theorem encodeWord_start_toNat (p : BitVec 16) : (encodeWord (.start p)).toNat = 3 * 2 ^ 28 + p.toNat := by
  rw [encodeWord, or_place_toNat p (by decide) (by decide), pow_zero, mul_one]
  rfl

theorem encodeWord_publish_toNat (v : Value) : (encodeWord (.publish v)).toNat = 5 * 2 ^ 28 + v.toNat := by
  rw [encodeWord, or_place_toNat v (by decide) (by decide), pow_zero, mul_one]
  rfl

theorem encodeWord_digit_toNat (v : DigitIn) (g : Target) (e : Bool) : (encodeWord (.digit v g e)).toNat =
    2 * 2 ^ 28 + v.toNat * 2 ^ 16 + e.toNat * 2 ^ 15 + (targetBits g).1.toNat * 2 ^ 14 + (targetBits g).2.toNat := by
  have hval : (0x20000000 ||| place v 16 : Word).toNat = 2 * 2 ^ 28 + v.toNat * 2 ^ 16 :=
    or_place_toNat v (by decide) (by decide)
  have hdp : (0x20000000 ||| place v 16 ||| place (BitVec.ofBool e) 15 : Word).toNat =
      2 * 2 ^ 28 + v.toNat * 2 ^ 16 + e.toNat * 2 ^ 15 := by
    rw [or_place_toNat _ (by decide) (by omega), hval, BitVec.toNat_ofBool]
  have hall : (0x20000000 ||| place v 16 ||| place (BitVec.ofBool e) 15 ||| place (targetBits g).1 14 : Word).toNat =
      2 * 2 ^ 28 + v.toNat * 2 ^ 16 + e.toNat * 2 ^ 15 + (targetBits g).1.toNat * 2 ^ 14 := by
    rw [or_place_toNat _ (by decide) (by omega), hdp]
  rw [encodeWord, or_place_toNat _ (by decide) (by omega), hall, pow_zero, mul_one]

/-! ## Decoding what was encoded -/

section
variable {cmd : Word}

theorem formatD_clear_iff_mod :
    cmd &&& 0x0FE03FF0 = 0 ↔ cmd.toNat / 2 ^ 21 % 2 ^ 7 = 0 ∧ cmd.toNat / 2 ^ 4 % 2 ^ 10 = 0 := by
  rw [← formatDClear_iff, formatDClear, Bool.and_eq_true, beq_iff_eq, beq_iff_eq, ← BitVec.toNat_inj,
    ← BitVec.toNat_inj, BitVec.extractLsb'_toNat, BitVec.extractLsb'_toNat, Nat.shiftRight_eq_div_pow,
    Nat.shiftRight_eq_div_pow]
  rfl

theorem getLsbD_iff_div_mod (k : Nat) : cmd.getLsbD k = true ↔ cmd.toNat / 2 ^ k % 2 = 1 := by
  rw [BitVec.getLsbD, Nat.testBit_eq_decide_div_mod_eq, decide_eq_true_iff]
end

theorem decodeHost_encodeWord_start {p : BitVec 16} (hp : p ≠ 0) :
    decodeHost (encodeWord (.start p)) = .command (.start p) := by
  have hw := encodeWord_start_toNat p
  have hlt := p.isLt
  have hne : p.toNat ≠ 0 := fun h => hp (BitVec.eq_of_toNat_eq h)
  rw [decodeHost_of_start_op (by omega), decodeStart_eq_ite,
    if_neg (not_not_intro (formatP_clear_iff_mod.2 (by omega))), if_neg (by omega), hw]
  congr 2
  exact BitVec.eq_of_toNat_eq ((BitVec.toNat_ofNat ..).trans (by omega))

theorem decodeHost_encodeWord_publish (v : Value) :
    decodeHost (encodeWord (.publish v)) = .command (.publish v) := by
  have hw := encodeWord_publish_toNat v
  have hlt := v.isLt
  rw [decodeHost_publish_word (by omega), if_neg (not_not_intro (formatP_clear_iff_mod.2 (by omega))), hw]
  congr 2
  exact BitVec.eq_of_toNat_eq ((BitVec.toNat_ofNat ..).trans (by omega))

theorem decodeHost_encodeWord_digit (v : DigitIn) (g : Target) (e : Bool) :
    decodeHost (encodeWord (.digit v g e)) = .command (.digit v g e) := by
  have hw := encodeWord_digit_toNat v g e
  have hv := v.isLt
  have he := e.toNat_le
  have ha := (targetBits g).1.isLt
  have hi := (targetBits g).2.isLt
  have hval : BitVec.ofNat 5 ((encodeWord (.digit v g e)).toNat / 2 ^ 16) = v :=
    BitVec.eq_of_toNat_eq ((BitVec.toNat_ofNat ..).trans (by omega))
  have hdp : (encodeWord (.digit v g e)).getLsbD 15 = e := by
    rw [Bool.eq_iff_iff, getLsbD_iff_div_mod, ← Bool.toNat_eq_one]
    omega
  have hall : (encodeWord (.digit v g e)).getLsbD 14 = true ↔ (targetBits g).1.toNat = 1 := by
    rw [getLsbD_iff_div_mod]
    omega
  have hidx : BitVec.ofNat 4 (encodeWord (.digit v g e)).toNat = (targetBits g).2 :=
    BitVec.eq_of_toNat_eq ((BitVec.toNat_ofNat ..).trans (by omega))
  rw [decodeHost_of_digit_op (by omega), decodeDigit_eq_ite, hval, hdp, hidx,
    if_neg (not_not_intro (formatD_clear_iff_mod.2 (by omega)))]
  cases g with
  | all =>
    have hzero : (encodeWord (.digit v .all e)).toNat % 2 ^ 4 = 0 := by
      have : (targetBits .all).2.toNat = 0 := rfl
      omega
    rw [if_neg (fun h => h.2 hzero), if_pos (hall.2 rfl)]
  | single i =>
    have hclear : ¬ (encodeWord (.digit v (.single i) e)).getLsbD 14 = true := fun h => nomatch hall.1 h
    rw [if_neg (fun h => hclear h.1), if_neg hclear]
    rfl

/-- The host commands: what is left of the instructions without the SCAN agent's event and the ENCODE port's query. -/
def Instr.isHostCommand : Instr → Bool
  | .encode _ | .tick => false
  | .nop | .digit _ _ _ | .start _ | .stop | .publish _ => true

theorem encode_hostCommand {i : Instr} (h : i.isHostCommand = true) : encode i = .host (encodeWord i) := by
  cases i with
  | encode d => cases h
  | tick => cases h
  | nop | digit v g e | start p | stop | publish v => rfl

theorem encodeBits_hostCommand {i : Instr} (h : i.isHostCommand = true) : encodeBits i = 32 := by
  cases i with
  | encode d => cases h
  | tick => cases h
  | nop | digit v g e | start p | stop | publish v => rfl

theorem decodeHost_encodeWord {i : Instr} (hh : i.isHostCommand = true) (hw : i.wf = true) :
    decodeHost (encodeWord i) = .command i := by
  cases i with
  | encode d => cases hh
  | tick => cases hh
  | nop => decide
  | stop => decide
  | digit v g e => exact decodeHost_encodeWord_digit v g e
  | start p => exact decodeHost_encodeWord_start (bne_iff_ne.1 hw)
  | publish v => exact decodeHost_encodeWord_publish v

theorem inputInstr_host {cmd : Word} {i : Instr} : inputInstr (.host cmd) = some i ↔ decodeHost cmd = .command i := by
  cases h : decodeHost cmd <;> simp [inputInstr, h]

/-- A 32-bit row is HOST's, unless it is the SCAN event code (log entry 16). -/
theorem tableInput_word (w : Word) : tableInput 32 w.toNat = some (if w = tickCode then .scan else .host w) := by
  have hlt : w.toNat < 2 ^ 32 := w.isLt
  rw [tableInput, if_neg (by decide), if_pos ⟨rfl, hlt⟩, BitVec.ofNat_toNat, BitVec.setWidth_eq, apply_ite some]

/-- An encoded instruction's table bits arrive on the port the instruction is encoded for. -/
theorem tableInput_encode {i : Instr} (hw : i.wf = true) :
    tableInput (encodeBits i) (encodeWord i).toNat = some (encode i) := by
  cases hh : i.isHostCommand with
  | true =>
    have hne : encodeWord i ≠ tickCode := fun h => by
      have hrefused : decodeHost tickCode = .refuse .hostTick := decodeHost_of_tick_op (by decide)
      have hcommand := decodeHost_encodeWord hh hw
      rw [h, hrefused] at hcommand
      cases hcommand
    rw [encodeBits_hostCommand hh, tableInput_word, if_neg hne, encode_hostCommand hh]
  | false =>
    cases i with
    | tick => exact tableInput_word tickCode
    | encode d =>
      have hd : (encodeWord (.encode d)).toNat = d.toNat := (place_toNat d (by decide)).trans (Nat.mul_one _)
      rw [hd, encodeBits, tableInput, if_pos (Nat.le_refl 8), if_pos d.isLt, BitVec.ofNat_toNat, BitVec.setWidth_eq]
      rfl
    | nop | digit v g e | start p | stop | publish v => cases hh

theorem inputInstr_encode {i : Instr} (hw : i.wf = true) : inputInstr (encode i) = some i := by
  cases hh : i.isHostCommand with
  | true => exact (encode_hostCommand hh).symm ▸ inputInstr_host.2 (decodeHost_encodeWord hh hw)
  | false =>
    cases i with
    | tick | encode d => rfl
    | nop | digit v g e | start p | stop | publish v => cases hh

/-- Settles O1: each instruction is read back from its port, and the table's bits arrive on that port. -/
theorem encodedInstructionDecodesBack : Obligations.EncodedInstructionDecodesBack := by
  intro i hw
  refine ⟨inputInstr_encode hw, ?_⟩
  rw [decodeTableWord, tableInput_encode hw]
  exact inputInstr_encode hw

/-! ## A word that decodes is its instruction's encoding -/

section
variable {cmd : Word}

theorem encodeWord_start_of_fields (hop : cmd.toNat / 2 ^ 28 = 3) (hp : cmd &&& 0x0FFF0000 = 0) :
    encodeWord (.start (BitVec.ofNat 16 cmd.toNat)) = cmd := by
  rw [formatP_clear_iff_mod] at hp
  apply BitVec.eq_of_toNat_eq
  rw [encodeWord_start_toNat, BitVec.toNat_ofNat]
  omega

theorem encodeWord_publish_of_fields (hop : cmd.toNat / 2 ^ 28 = 5) (hp : cmd &&& 0x0FFF0000 = 0) :
    encodeWord (.publish (BitVec.ofNat 16 cmd.toNat)) = cmd := by
  rw [formatP_clear_iff_mod] at hp
  apply BitVec.eq_of_toNat_eq
  rw [encodeWord_publish_toNat, BitVec.toNat_ofNat]
  omega

theorem targetOf_eq_ite :
    targetOf cmd = if cmd.getLsbD 14 = true then .all else .single (BitVec.ofNat 4 cmd.toNat) := by
  rw [← idxField_eq]
  rfl

/-- The target of an accepted word (rule R54), taken back to ALL and IDX. -/
theorem targetBits_targetOf (h : ¬ (cmd.getLsbD 14 = true ∧ cmd.toNat % 2 ^ 4 ≠ 0)) :
    (targetBits (targetOf cmd)).1.toNat = cmd.toNat / 2 ^ 14 % 2 ∧
      (targetBits (targetOf cmd)).2.toNat = cmd.toNat % 2 ^ 4 := by
  have hbit := getLsbD_iff_div_mod (cmd := cmd) 14
  rw [targetOf_eq_ite]
  split
  · next hall =>
    have hidx : cmd.toNat % 2 ^ 4 = 0 := by simpa [hall] using h
    rw [hbit.1 hall, hidx]
    exact ⟨rfl, rfl⟩
  · next hall =>
    have hclear : cmd.toNat / 2 ^ 14 % 2 = 0 := Nat.mod_two_ne_one.1 (mt hbit.2 hall)
    exact ⟨hclear.symm, BitVec.toNat_ofNat ..⟩

theorem encodeWord_digit_of_fields (hop : cmd.toNat / 2 ^ 28 = 2) (hd : cmd &&& 0x0FE03FF0 = 0)
    (hidx : ¬ (cmd.getLsbD 14 = true ∧ cmd.toNat % 2 ^ 4 ≠ 0)) :
    encodeWord (.digit (BitVec.ofNat 5 (cmd.toNat / 2 ^ 16)) (targetOf cmd) (cmd.getLsbD 15)) = cmd := by
  obtain ⟨hhigh, hlow⟩ := formatD_clear_iff_mod.1 hd
  obtain ⟨hall, hidx⟩ := targetBits_targetOf hidx
  have hdp : (cmd.getLsbD 15).toNat = cmd.toNat / 2 ^ 15 % 2 := Nat.toNat_testBit ..
  apply BitVec.eq_of_toNat_eq
  rw [encodeWord_digit_toNat, BitVec.toNat_ofNat, hall, hidx, hdp]
  omega

end

/-- Encodings are unique (30_encoding.md section 4): an accepted word is its instruction's encoding. -/
theorem encodeWord_of_decodeHost {cmd : Word} {i : Instr} (h : decodeHost cmd = .command i) :
    i.isHostCommand = true ∧ i.wf = true ∧ encodeWord i = cmd := by
  have hop : cmd.toNat / 2 ^ 28 = 0 ∨ cmd.toNat / 2 ^ 28 = 1 ∨ cmd.toNat / 2 ^ 28 = 2 ∨ cmd.toNat / 2 ^ 28 = 3 ∨
    cmd.toNat / 2 ^ 28 = 4 ∨ cmd.toNat / 2 ^ 28 = 5 ∨ 6 ≤ cmd.toNat / 2 ^ 28 := by omega
  rcases hop with hop | hop | hop | hop | hop | hop | hop
  · rw [decodeHost_nop_word hop] at h
    split at h
    · next hc => cases h; exact ⟨rfl, rfl, hc.symm⟩
    · cases h
  · rw [decodeHost_of_tick_op hop] at h
    cases h
  · rw [decodeHost_of_digit_op hop, decodeDigit_eq_ite] at h
    split at h
    · cases h
    · next hd =>
      split at h
      · cases h
      · next hidx =>
        rw [← targetOf_eq_ite] at h
        cases h
        exact ⟨rfl, rfl, encodeWord_digit_of_fields hop (not_not.1 hd) hidx⟩
  · rw [decodeHost_of_start_op hop, decodeStart_eq_ite] at h
    split at h
    · cases h
    · next hp =>
      split at h
      · cases h
      · next hnz =>
        cases h
        refine ⟨rfl, bne_iff_ne.2 fun hz => hnz ?_, encodeWord_start_of_fields hop (not_not.1 hp)⟩
        exact (BitVec.toNat_ofNat ..).symm.trans (congrArg BitVec.toNat hz)
  · rw [decodeHost_stop_word hop] at h
    split at h
    · next hc => cases h; exact ⟨rfl, rfl, hc.symm⟩
    · cases h
  · rw [decodeHost_publish_word hop] at h
    split at h
    · cases h
    · next hp => cases h; exact ⟨rfl, rfl, encodeWord_publish_of_fields hop (not_not.1 hp)⟩
  · rw [decodeHost_of_reserved_op hop] at h
    cases h

theorem Instr.isHostCommand_iff {i : Instr} : i.isHostCommand = true ↔ i ≠ .tick ∧ ∀ d, i ≠ .encode d := by
  cases i <;> simp [Instr.isHostCommand]

/-- Settles O2: every format's fields are read off the word, so the encoder puts the same word together. -/
theorem decodedWordIsTheEncoding : Obligations.DecodedWordIsTheEncoding := by
  intro cmd i h
  obtain ⟨hhost, hwf, henc⟩ := encodeWord_of_decodeHost h
  exact ⟨henc, hwf, Instr.isHostCommand_iff.1 hhost⟩

/-- Settles O4: each word is a closed term the decoders evaluate. -/
theorem writtenOutWordsDecode : Obligations.WrittenOutWordsDecode := by
  unfold Obligations.WrittenOutWordsDecode
  decide

end Sys2Proof
end

section
/-! PROOFS. What each instruction does, one case per branch of its pseudocode, and the frame and the events that follow. -/

namespace Sys2Proof.Machine

/-! ## The answer of each instruction -/

/-- The state with the events `es` emitted. -/
def State.shown (s : State) (es : List EventRecord) : State :=
  { s with out := replay s.out es, events := s.events ++ es }

/-- The state after a TICK (41_scanner.md rule R69). -/
def State.ticked (s : State) : State :=
  (s.shown (tickEvents s.glyphs s.sdv.toNat s.cursor.toNat)).advanceCursor

theorem exec_tick_ticked (s : State) : exec .tick s = .next s.ticked := exec_tick s

theorem exec_encode (d : DigitIn) (s : State) : exec (.encode d) s = .next (s.driveEncIn d) := rfl

theorem exec_digit_armed {s : State} (h : s.scanEn = true) (v : DigitIn) (g : Target) (e : Bool) :
    exec (.digit v g e) s = .next (s.raiseFault .concurrentOutputDrive (encodeWord (.digit v g e))) :=
  if_pos h

theorem exec_start_zero (s : State) : exec (.start 0) s = .next (s.refuse .zeroPeriod 0x30000000) := rfl

/-- What an instruction does, one case for each branch of the spec's pseudocode. -/
inductive Effect (s : State) : Instr → State → Prop where
  | encode (d : DigitIn) : Effect s (.encode d) (s.driveEncIn d)
  | nop : Effect s .nop s
  | tick : Effect s .tick s.ticked
  | digitFault {v : DigitIn} {g : Target} {e : Bool} (harmed : s.scanEn = true) :
      Effect s (.digit v g e) (s.raiseFault .concurrentOutputDrive (encodeWord (.digit v g e)))
  | digitShown {v : DigitIn} {g : Target} {e : Bool} {es : List EventRecord} (hdisarmed : s.scanEn = false)
      (hes : es = [] ∨ es = tagged .host .digit (sequenceEvents (segmentsOf s.glyphs v) g e)) :
      Effect s (.digit v g e) (s.shown es)
  | start {p : BitVec 16} (hp : p ≠ 0) : Effect s (.start p) (s.arm p)
  | startZero : Effect s (.start 0) (s.refuse .zeroPeriod 0x30000000)
  | stop : Effect s .stop s.disarm
  | publish (v : Value) : Effect s (.publish v) (s.handoffWrite v)

theorem exec_next_effect (i : Instr) (s : State) : ∃ t, exec i s = .next t ∧ Effect s i t := by
  cases i with
  | encode d => exact ⟨_, exec_encode d s, .encode d⟩
  | nop => exact ⟨_, exec_nop s, .nop⟩
  | tick => exact ⟨_, exec_tick_ticked s, .tick⟩
  | digit v g e =>
    cases ha : s.scanEn with
    | true => exact ⟨_, exec_digit_armed ha v g e, .digitFault ha⟩
    | false =>
      obtain ⟨es, hseq, hes⟩ := displaySeq_appends s .host .digit v g e
      exact ⟨_, (exec_digit_disarmed ha v g e).trans (congrArg _ hseq), .digitShown ha hes⟩
  | start p =>
    by_cases hp : p = 0
    · subst hp; exact ⟨_, exec_start_zero s, .startZero⟩
    · exact ⟨_, exec_start hp s, .start hp⟩
  | stop => exact ⟨_, exec_stop s, .stop⟩
  | publish v => exact ⟨_, exec_publish v s, .publish v⟩

theorem exec_effect {i : Instr} {s t : State} (h : exec i s = .next t) : Effect s i t := by
  obtain ⟨u, hu, he⟩ := exec_next_effect i s
  cases hu.symm.trans h
  exact he

/-! ## What an instruction leaves unchanged, and what it emits -/

/-- Settles O23: in each case of `Effect` every field but the written ones is read through the update. -/
theorem onlyTheOwnersWrite : Obligations.OnlyTheOwnersWrite := by
  intro i s t h
  cases exec_effect h with
  | encode d => simp
  | nop => simp
  | tick => simp [State.ticked, State.shown]
  | digitFault ha => simp
  | digitShown hs hes => simp [State.shown]
  | start hp => simp
  | startZero => simp
  | stop => simp
  | publish v => simp

/-- The agent and the operation that an instruction's events carry. -/
def EmittedBy (i : Instr) (a : Agent) (op : Operation) : Prop :=
  (i = .tick ∧ a = .scan ∧ op = .tick) ∨ ((∃ v g e, i = .digit v g e) ∧ a = .host ∧ op = .digit)

/-- The events of an instruction: none, or those of one output sequence. -/
inductive Emits (i : Instr) : List EventRecord → Prop where
  | nothing : Emits i []
  | sequence {a : Agent} {op : Operation} (p : BitVec 7) (g : Target) (e : Bool) (hby : EmittedBy i a op) :
      Emits i (tagged a op (sequenceEvents p g e))

theorem exec_emits {i : Instr} {s t : State} (h : exec i s = .next t) :
    ∃ es, Emits i es ∧ t.events = s.events ++ es ∧ t.out = replay s.out es := by
  have hquiet : ∀ {u : State}, u.events = s.events → u.out = s.out →
      ∃ es, Emits i es ∧ u.events = s.events ++ es ∧ u.out = replay s.out es :=
    fun he ho => ⟨[], .nothing, he.trans (List.append_nil _).symm, ho⟩
  cases exec_effect h with
  | tick => exact ⟨_, .sequence _ _ _ (.inl ⟨rfl, rfl, rfl⟩), rfl, rfl⟩
  | digitShown hs hes =>
    refine ⟨_, ?_, rfl, rfl⟩
    rcases hes with rfl | rfl
    · exact .nothing
    · exact .sequence _ _ _ (.inr ⟨⟨_, _, _, rfl⟩, rfl, rfl⟩)
  | encode d => exact hquiet rfl rfl
  | nop => exact hquiet rfl rfl
  | digitFault ha => exact hquiet rfl rfl
  | start hp => exact hquiet rfl rfl
  | startZero => exact hquiet rfl rfl
  | stop => exact hquiet rfl rfl
  | publish v => exact hquiet rfl rfl

/-- Settles O25: the events an instruction emits are one sequence's, tagged by that instruction. -/
theorem eventsAreAppendedAndApplied : Obligations.EventsAreAppendedAndApplied := by
  intro i s t h
  obtain ⟨es, hes, hevents, hout⟩ := exec_emits h
  refine ⟨es, hevents, hout, fun r hr => ?_⟩
  cases hes with
  | nothing => cases hr
  | sequence p g e hby =>
    obtain ⟨ev, -, rfl⟩ := List.mem_map.1 hr
    exact hby

/-! ## Single instructions -/

theorem segTable_getLsbD_seven (glyphs : Config.Glyphs) (n : Nat) : (segTable glyphs n).getLsbD 7 = false := by
  unfold segTable
  split <;> simp

theorem encodeDigit_getLsbD_seven (glyphs : Config.Glyphs) (d : DigitIn) :
    (encodeDigit glyphs d).getLsbD 7 = false := by
  unfold encodeDigit
  split <;> exact segTable_getLsbD_seven ..

theorem encodeDigit_blank (glyphs : Config.Glyphs) {d : DigitIn} (h : 16 ≤ d.toNat) :
    encodeDigit glyphs d = 0x00 := by
  have hblank : segTable glyphs 16 = 0x00 := rfl
  unfold encodeDigit Config.blank
  split
  · rw [show d.toNat = 16 by omega, hblank]
  · exact hblank

/-- Settles O14: `enc_out` is the table's entry for the value now driven on `enc_in`. -/
theorem encodeAnswersTheTable : Obligations.EncodeAnswersTheTable := by
  refine fun d s => ⟨_, exec_encode d s, rfl, rfl, encodeDigit_getLsbD_seven _ _, encodeDigit_blank _, ?_⟩
  rintro hg rfl
  rw [State.encOut, State.driveEncIn_glyphs, State.driveEncIn_encIn, hg]
  decide

theorem State.refuse_eq_self {s : State} (h : s.refused ≠ none) (r : RefusalReason) (cmd : Word) :
    s.refuse r cmd = s := by
  obtain ⟨m, hm⟩ := Option.ne_none_iff_exists'.1 h
  have hkeep : (s.refused <|> some (r, cmd)) = s.refused := by rw [hm]; rfl
  rw [State.refuse, hkeep]

/-- Settles O20: `refuse` keeps a mark that is set. -/
theorem zeroPeriodTermIsRefused : Obligations.ZeroPeriodTermIsRefused := by
  refine fun s => ⟨_, exec_start_zero s, rfl, fun hr => ?_, fun hr => State.refuse_eq_self hr ..⟩
  rw [State.refuse_refused, hr]
  rfl

end Sys2Proof.Machine
end

section
/-! PROOFS. What a step runs, how a mark stops it, and what every step keeps (60_exceptions.md sections 3 to 5). -/

namespace Sys2Proof.Machine

/-! ## Which instruction a step runs -/

/-- Settles O5: one lemma for each input that is run as an instruction. -/
theorem stepRunsDecodedInstruction : Obligations.StepRunsDecodedInstruction := by
  refine fun s rest => ⟨fun d hi => step_query hi, fun hf hr => ?_⟩
  have hm : s.marked = false := marked_eq_false.2 ⟨hf, hr⟩
  refine ⟨fun cmd i hi hd => step_host hm hi hd, fun hi ha => step_scan_armed hm hi ha, fun hi => ?_⟩
  split
  · next ha => exact step_idle_armed hm hi ha
  · next ha => exact step_idle_disarmed hm hi (Bool.eq_false_iff.2 ha)

/-- Only the SCAN port's event is read as TICK. -/
theorem inputInstr_tick_iff {x : Input} {i : Instr} (h : inputInstr x = some i) : x = .scan ↔ i = .tick := by
  cases x with
  | host cmd =>
    obtain ⟨hhost, -, -⟩ := encodeWord_of_decodeHost (inputInstr_host.1 h)
    exact ⟨nofun, fun hi => absurd hi (Instr.isHostCommand_iff.1 hhost).1⟩
  | scan => exact ⟨fun _ => (Option.some.inj h).symm, fun _ => rfl⟩
  | query d => cases h; exact ⟨nofun, nofun⟩
  | reset => cases h

theorem step_withInput {s : State} {x : Input} {i : Instr} (h : inputInstr x = some i) :
    step (s.withInput x) = exec i ((s.withInput x).consume s.inputs) := by
  have hm : (s.withInput x).marked = false := rfl
  cases x with
  | host cmd => exact step_host hm rfl (inputInstr_host.1 h)
  | scan => cases h; exact step_scan_armed hm rfl rfl
  | query d => cases h; exact step_query rfl
  | reset => cases h

/-- Settles O6: the port the bits arrive on is served next, and it carries TICK exactly when it is the SCAN port. -/
theorem placedWordRunsNext : Obligations.PlacedWordRunsNext := by
  intro s nbits w i h
  obtain ⟨x, hx, hi⟩ := Option.bind_eq_some_iff.1 h
  have hplace : s.withFetchWord nbits w = s.withInput x := by rw [State.withFetchWord, hx]
  have harm : (s.withInput x).scanEn = if i = .tick then true else s.scanEn :=
    if_congr (inputInstr_tick_iff hi) rfl rfl
  rw [hplace, step_withInput hi, ← harm]
  rfl

/-! ## Marked states -/

/-- Settles O8: `stopOutcome` reads the fault mark first. -/
theorem markedStateIsQuiescent : Obligations.MarkedStateIsQuiescent := by
  refine fun s hq hr => ⟨fun r cmd hf => ?_, fun r cmd hf hx => ?_⟩
  · rw [step_marked (by simp [State.marked, hf]) hq hr, stopOutcome, hf]
  · rw [step_marked (by simp [State.marked, hx]) hq hr, stopOutcome, hf, hx]

/-- At a marked state whatever arrives for an agent finds no step (60_exceptions.md rule R105). -/
theorem step_agent_of_marked {s : State} {x : Input} {more : List Input} (hi : s.inputs = x :: more)
    (hx : x = .scan ∨ ∃ w, x = .host w) :
    (∀ r cmd, s.fault = some (r, cmd) → step s = .fault (.faulted r cmd)) ∧
    (∀ r cmd, s.fault = none → s.refused = some (r, cmd) → step s = .refused (.refusedWord r cmd)) := by
  refine markedStateIsQuiescent s (fun d rest h => ?_) (fun rest h => ?_)
  all_goals
    cases hi.symm.trans h
    rcases hx with hx | ⟨w, hx⟩ <;> cases hx

/-- Settles O10: an unset refusal mark takes the reason and the word, and then stops both agents. -/
theorem refusalMarksOnceAndStops : Obligations.RefusalMarksOnceAndStops := by
  intro s cmd rest r hf hr hi hd
  have hmark : (s.consume rest).refuse r cmd = { s with inputs := rest, refused := some (r, cmd) } := by
    rw [State.refuse, State.consume_refused, hr]
    rfl
  refine ⟨_, step_host_refuse (marked_eq_false.2 ⟨hf, hr⟩) hi hd, hmark, fun hs => ?_, fun x hx more => ?_⟩
  · obtain ⟨-, -, -, hnone⟩ := hs
    rw [hmark] at hnone
    cases hnone
  · rw [hmark]
    exact (step_agent_of_marked rfl hx).2 r cmd hf rfl

theorem raiseFault_fault_of_marked {s : State} (h : s.fault ≠ none) (r : FaultReason) (cmd : Word) :
    (s.raiseFault r cmd).fault = s.fault := by
  obtain ⟨m, hm⟩ := Option.ne_none_iff_exists'.1 h
  rw [State.raiseFault_fault, hm]
  rfl

/-- Settles O18: an unset fault mark takes the word the encoder gives back, and then stops both agents. -/
theorem digitWhileArmedFaultsAndStops : Obligations.DigitWhileArmedFaultsAndStops := by
  refine ⟨fun v g e s ha =>
      ⟨_, exec_digit_armed ha v g e, rfl, fun hf => raiseFault_fault_of_marked hf .., fun hf => ?_⟩,
    fun s cmd rest v g e hf hr ha hi hd => ?_⟩
  · rw [State.raiseFault_fault, hf]
    rfl
  · obtain ⟨-, -, hword⟩ := encodeWord_of_decodeHost hd
    have hmark : (s.consume rest).raiseFault .concurrentOutputDrive cmd =
        { s with inputs := rest, fault := some (.concurrentOutputDrive, cmd) } := by
      rw [State.raiseFault, State.consume_fault, hf]
      rfl
    have hstep := (step_host (marked_eq_false.2 ⟨hf, hr⟩) hi hd).trans (exec_digit_armed (s := s.consume rest) ha v g e)
    rw [hword, hmark] at hstep
    refine ⟨_, hstep, rfl, fun hs => ?_, fun x hx more => ?_⟩
    · obtain ⟨-, -, hnone, -⟩ := hs
      cases hnone
    · exact (step_agent_of_marked rfl hx).1 _ cmd rfl

/-! ## Reset and progress -/

/-- Settles O13: `applyReset` writes the block's record and nothing else. -/
theorem resetWorksFromAnyState : Obligations.ResetWorksFromAnyState :=
  fun _ _ hi => ⟨_, step_reset hi, rfl, rfl, rfl, rfl, rfl, rfl, rfl, rfl, rfl, rfl, rfl, rfl, rfl⟩

theorem exec_completes (i : Instr) (s : State) : ∃ t, exec i s = .next t := by
  obtain ⟨t, ht, -⟩ := exec_next_effect i s
  exact ⟨t, ht⟩

/-- Settles O24: at an unmarked state a step is an instruction, a refusal's mark, a reset or an expiry let go. -/
theorem everyOperationCompletes : Obligations.EveryOperationCompletes := by
  refine ⟨exec_completes, fun s hf hr => ?_⟩
  have hm : s.marked = false := marked_eq_false.2 ⟨hf, hr⟩
  rcases hi : s.inputs with _ | ⟨x, rest⟩
  · cases ha : s.scanEn with
    | true => exact step_idle_armed hm hi ha ▸ exec_completes ..
    | false => exact step_idle_disarmed hm hi ha ▸ exec_completes ..
  · cases x with
    | host cmd =>
      cases hd : decodeHost cmd with
      | command i => exact step_host hm hi hd ▸ exec_completes ..
      | refuse r => exact ⟨_, step_host_refuse hm hi hd⟩
    | scan =>
      cases ha : s.scanEn with
      | true => exact step_scan_armed hm hi ha ▸ exec_completes ..
      | false => exact ⟨_, step_scan_disarmed hm hi ha⟩
    | query d => exact step_query hi ▸ exec_completes ..
    | reset => exact ⟨_, step_reset hi⟩

/-! ## What every step keeps -/

/-- Every step is a reset, a refusal, or an instruction on the state whose waiting inputs have moved on; an expiry let
go is NOP there. -/
theorem step_reset_or_refuse_or_exec {s t : State} (h : step s = .next t) :
    (∃ rest, s.inputs = .reset :: rest ∧ t = (s.consume rest).applyReset) ∨
    (∃ rest r cmd, t = (s.consume rest).refuse r cmd) ∨
    ∃ rest i, exec i (s.consume rest) = .next t := by
  rcases step_cases h with ⟨i, rest, -, -, hx⟩ | ⟨r, cmd, rest, -, -, -, rfl⟩ | ⟨rest, -, -, -, hx⟩ |
    ⟨rest, -, -, -, rfl⟩ | ⟨d, rest, -, rfl⟩ | ⟨rest, hi, rfl⟩ | ⟨-, -, -, hx⟩ | ⟨-, -, -, rfl⟩
  · exact .inr (.inr ⟨rest, i, hx⟩)
  · exact .inr (.inl ⟨rest, r, cmd, rfl⟩)
  · exact .inr (.inr ⟨rest, .tick, hx⟩)
  · exact .inr (.inr ⟨rest, .nop, exec_nop _⟩)
  · exact .inr (.inr ⟨rest, .encode d, exec_encode d _⟩)
  · exact .inl ⟨rest, hi, rfl⟩
  · exact .inr (.inr ⟨s.inputs, .tick, hx⟩)
  · exact .inr (.inr ⟨t.inputs, .nop, exec_nop _⟩)

theorem exec_keeps_marks {i : Instr} {s t : State} (h : exec i s = .next t) :
    (s.fault ≠ none → t.fault = s.fault) ∧ (s.refused ≠ none → t.refused = s.refused) := by
  obtain ⟨-, -, -, -, -, hfault, hrefused, -⟩ := onlyTheOwnersWrite i s t h
  refine ⟨fun hf => ?_, fun hr => ?_⟩
  · by_cases hi : ∃ v g e, i = .digit v g e
    · obtain ⟨v, g, e, rfl⟩ := hi
      cases exec_effect h with
      | digitFault ha => exact raiseFault_fault_of_marked hf ..
      | digitShown hd hes => rfl
    · exact hfault fun v g e hv => hi ⟨v, g, e, hv⟩
  · by_cases hi : ∃ p, i = .start p
    · obtain ⟨p, rfl⟩ := hi
      cases exec_effect h with
      | start hp => rfl
      | startZero => exact congrArg State.refused (State.refuse_eq_self hr ..)
    · exact hrefused fun p hp => hi ⟨p, hp⟩

/-- Settles O9: the two writers of the marks keep a mark that is set. -/
theorem marksAreSticky : Obligations.MarksAreSticky := by
  refine ⟨fun i s t h => exec_keeps_marks h, fun s t hnr h => ?_⟩
  rcases step_reset_or_refuse_or_exec h with ⟨rest, hi, -⟩ | ⟨rest, r, cmd, rfl⟩ | ⟨rest, i, hx⟩
  · exact absurd hi (hnr rest)
  · exact ⟨fun _ => rfl, fun hr => by rw [State.refuse_eq_self (s := s.consume rest) hr, State.consume_refused]⟩
  · exact exec_keeps_marks (s := s.consume rest) hx

theorem exec_keeps_period_ne_zero {i : Instr} {s t : State} (h : exec i s = .next t) (hs : s.periodMs ≠ 0) :
    t.periodMs ≠ 0 := by
  obtain ⟨-, -, hperiod, -⟩ := onlyTheOwnersWrite i s t h
  by_cases hi : ∃ p, i = .start p
  · obtain ⟨p, rfl⟩ := hi
    cases exec_effect h with
    | start hp => exact hp
    | startZero => exact hs
  · rwa [hperiod fun p hp => hi ⟨p, hp⟩]

/-- Settles O29: START writes no period of 0, and reset writes 30. -/
theorem everyStepKeepsPeriodLegal : Obligations.EveryStepKeepsPeriodLegal := by
  intro s t hs h
  rcases step_reset_or_refuse_or_exec h with ⟨rest, -, rfl⟩ | ⟨rest, r, cmd, rfl⟩ | ⟨rest, i, hx⟩
  · rw [State.applyReset_periodMs, State.reset_periodMs]
    decide
  · exact hs
  · exact exec_keeps_period_ne_zero hx hs

end Sys2Proof.Machine
end

section
/-! PROOFS. The multiplexing invariant and freedom from ghosting, event by event (41_scanner.md rule R75, 20_memory.md rule R42). -/

namespace Sys2Proof.Machine

/-! ## The invariants as properties of the event list -/

/-- The second clause of `MuxInvariant`, of a list of events. -/
def MuxEvents (l : List EventRecord) : Prop :=
  ∀ es later, l = es ++ later → inDiagnostic es = false → (replay Latches.reset es).atMostOneSelected

/-- `GhostFree`, of a list of events. -/
def GhostEvents (l : List EventRecord) : Prop :=
  ∀ es r later, l = es ++ r :: later →
    (∃ p, r.event = .setSeg p) ∨ (∃ b, r.event = .setDp b) → (replay Latches.reset es).sel = 0

theorem muxInvariant_iff {s : State} : MuxInvariant s ↔ s.out = replay Latches.reset s.events ∧ MuxEvents s.events :=
  Iff.rfl

theorem ghostFree_iff {s : State} : GhostFree s ↔ GhostEvents s.events := Iff.rfl

theorem MuxEvents.nil : MuxEvents [] := by
  intro es later h _
  obtain ⟨rfl, -⟩ := List.append_eq_nil_iff.1 h.symm
  exact atMostOneSelected_of_zero rfl

theorem GhostEvents.nil : GhostEvents [] :=
  fun _ _ _ h => absurd h (by simp)

/-! ## One more event -/

section
variable {l : List EventRecord} {r : EventRecord}

/-- The new event adds one boundary, the one after it. -/
theorem MuxEvents.concat (h : MuxEvents l)
    (hr : inDiagnostic (l ++ [r]) = false → (replay Latches.reset (l ++ [r])).atMostOneSelected) :
    MuxEvents (l ++ [r]) := by
  intro es later he hd
  rcases List.eq_nil_or_concat' later with rfl | ⟨later, b, rfl⟩
  · rw [List.append_nil] at he
    subst he
    exact hr hd
  · rw [← List.append_assoc] at he
    exact h es later (List.append_inj_left' he rfl) hd

/-- The new event is made at the last boundary of the list before. -/
theorem GhostEvents.concat (h : GhostEvents l)
    (hr : (∃ p, r.event = .setSeg p) ∨ (∃ b, r.event = .setDp b) → (replay Latches.reset l).sel = 0) :
    GhostEvents (l ++ [r]) := by
  intro es x later he hx
  rcases List.eq_nil_or_concat' later with rfl | ⟨later, b, rfl⟩
  · obtain ⟨rfl, hx'⟩ := List.append_inj' he rfl
    cases hx'
    exact hr hx
  · rw [← List.cons_append, ← List.append_assoc] at he
    exact h es x later (List.append_inj_left' he rfl) hx

end

/-! ## One more output sequence (20_memory.md rule R42) -/

theorem selectEvents_cases (g : Target) :
    selectEvents g = [] ∨ (∃ k, selectEvents g = [.select k]) ∨ selectEvents g = [.selectAll] := by
  cases g with
  | all => exact .inr (.inr rfl)
  | single i =>
    by_cases hi : i.toNat < 4
    · exact .inr (.inl ⟨_, selectEvents_single hi⟩)
    · exact .inl (dif_neg hi)

section
variable (l : List EventRecord) (a : Agent) (op : Operation) (p : BitVec 7) (g : Target) (e : Bool)

theorem append_sequence : l ++ tagged a op (sequenceEvents p g e) =
    l ++ [⟨a, op, .deselectAll⟩] ++ [⟨a, op, .setSeg p⟩] ++ [⟨a, op, .setDp e⟩] ++ tagged a op (selectEvents g) := by
  simp [tagged_sequenceEvents]

variable {l}

/-- A sequence is dark until its last event, which selects one digit or enters diagnostic display. -/
theorem MuxEvents.sequence (h : MuxEvents l) : MuxEvents (l ++ tagged a op (sequenceEvents p g e)) := by
  have hdark : MuxEvents (l ++ [⟨a, op, .deselectAll⟩] ++ [⟨a, op, .setSeg p⟩] ++ [⟨a, op, .setDp e⟩]) :=
    ((h.concat fun _ => atMostOneSelected_of_zero (by simp [Latches.apply])).concat
      fun _ => atMostOneSelected_of_zero (by simp [Latches.apply])).concat
      fun _ => atMostOneSelected_of_zero (by simp [Latches.apply])
  rw [append_sequence]
  rcases selectEvents_cases g with hg | ⟨k, hg⟩ | hg <;> rw [hg]
  · rwa [tagged, List.map_nil, List.append_nil]
  · exact hdark.concat fun _ => (onlySelected_shift k.isLt (by simp [Latches.apply])).atMostOne
  · exact hdark.concat fun hd => by rw [inDiagnostic_concat] at hd; cases hd

/-- A sequence changes segments and point right after its DeselectAll. -/
theorem GhostEvents.sequence (h : GhostEvents l) : GhostEvents (l ++ tagged a op (sequenceEvents p g e)) := by
  have hdark : GhostEvents (l ++ [⟨a, op, .deselectAll⟩] ++ [⟨a, op, .setSeg p⟩] ++ [⟨a, op, .setDp e⟩]) :=
    ((h.concat (by simp)).concat fun _ => by simp [Latches.apply]).concat fun _ => by simp [Latches.apply]
  rw [append_sequence]
  rcases selectEvents_cases g with hg | ⟨k, hg⟩ | hg <;> rw [hg]
  · rwa [tagged, List.map_nil, List.append_nil]
  · exact hdark.concat (by simp)
  · exact hdark.concat (by simp)

end

/-! ## Every step -/

/-- A step starts the event list afresh at reset, or extends it with what one instruction emits. -/
theorem step_emits {s t : State} (h : step s = .next t) :
    (t.events = [] ∧ t.out = Latches.reset) ∨
    ∃ i es, Emits i es ∧ t.events = s.events ++ es ∧ t.out = replay s.out es := by
  rcases step_reset_or_refuse_or_exec h with ⟨rest, -, rfl⟩ | ⟨rest, r, cmd, rfl⟩ | ⟨rest, i, hx⟩
  · exact .inl ⟨rfl, rfl⟩
  · exact .inr ⟨.nop, [], .nothing, (List.append_nil _).symm, rfl⟩
  · exact .inr ⟨i, exec_emits (s := s.consume rest) hx⟩

/-- Settles O26: what an instruction emits is nothing or one sequence, and the latches replay it. -/
theorem everyStepKeepsMuxInvariant : Obligations.EveryStepKeepsMuxInvariant := by
  intro s t hs h
  rw [muxInvariant_iff] at hs ⊢
  obtain ⟨hreplay, hmux⟩ := hs
  rcases step_emits h with ⟨hevents, hout⟩ | ⟨i, es, hes, hevents, hout⟩ <;> rw [hevents, hout]
  · exact ⟨rfl, .nil⟩
  · refine ⟨by rw [replay_append, hreplay], ?_⟩
    cases hes with
    | nothing => rwa [List.append_nil]
    | sequence p g e hby => exact hmux.sequence _ _ p g e

/-- Settles O27: what an instruction emits is nothing or one sequence. -/
theorem everyStepKeepsGhostFree : Obligations.EveryStepKeepsGhostFree := by
  intro s t hs h
  rw [ghostFree_iff] at hs ⊢
  rcases step_emits h with ⟨hevents, -⟩ | ⟨i, es, hes, hevents, -⟩ <;> rw [hevents]
  · exact .nil
  · cases hes with
    | nothing => rwa [List.append_nil]
    | sequence p g e hby => exact hs.sequence _ _ p g e

/-- Settles O28: no event has been emitted, and the latches are dark. -/
theorem invariantsHoldAtReset : Obligations.InvariantsHoldAtReset :=
  ⟨muxInvariant_iff.2 ⟨rfl, .nil⟩, ghostFree_iff.2 .nil, by decide⟩

end Sys2Proof.Machine
end

section
/-! PROOFS. Runs of the armed block: it scans, and it ticks once the waiting commands are served (41_scanner.md section 4,
42_handoff.md rule R85). -/

namespace Sys2Proof.Machine

/-! ## Runs -/

theorem runN_succ_of_step {s t : State} (h : step s = .next t) (n : Nat) : runN (n + 1) s = runN n t := by
  rw [runN, h]

/-- A run that goes through has taken its first step. -/
theorem step_of_runN_succ {n : Nat} {s t : State} (h : runN (n + 1) s = .next t) :
    ∃ u, step s = .next u ∧ runN n u = .next t := by
  rw [runN] at h
  split at h
  · next u hu => exact ⟨u, hu, h⟩
  · cases h
  · cases h

theorem runN_add_of_run {m : Nat} {s t : State} (h : runN m s = .next t) (n : Nat) : runN (m + n) s = runN n t := by
  induction m generalizing s with
  | zero => cases h; rw [Nat.zero_add]
  | succ m ih =>
    obtain ⟨u, hu, hrun⟩ := step_of_runN_succ h
    rw [Nat.add_right_comm, runN_succ_of_step hu]
    exact ih hrun

/-! ## The idle armed block (41_scanner.md rules R76, R77) -/

/-- The timer is armed and no mark is set: TICK is enabled (60_exceptions.md rule R92). -/
structure State.Live (s : State) : Prop where
  armed : s.scanEn = true
  noFault : s.fault = none
  noRefusal : s.refused = none

theorem State.Live.unmarked {s : State} (h : s.Live) : s.marked = false := marked_eq_false.2 ⟨h.noFault, h.noRefusal⟩

theorem State.Live.ticked {s : State} (h : s.Live) : s.ticked.Live := ⟨h.armed, h.noFault, h.noRefusal⟩

theorem step_idle_live {s : State} (h : s.Live) (hi : s.inputs = []) : step s = .next s.ticked :=
  (step_idle_armed h.unmarked hi h.armed).trans (exec_tick_ticked s)

theorem step_scan_live {s : State} {rest : List Input} (h : s.Live) (hi : s.inputs = .scan :: rest) :
    step s = .next (s.consume rest).ticked :=
  (step_scan_armed h.unmarked hi h.armed).trans (exec_tick_ticked _)

/-- With HOST silent, n steps of the armed block are n TICKs. -/
theorem runN_idle_live {s : State} (h : s.Live) (hi : s.inputs = []) (n : Nat) :
    runN n s = .next (State.ticked^[n] s) := by
  induction n generalizing s with
  | zero => rfl
  | succ n ih => exact (runN_succ_of_step (step_idle_live h hi) n).trans (ih h.ticked hi)

theorem ticked_cursor (s : State) : s.ticked.cursor = s.cursor - 1 := by
  have hall : ∀ c : BitVec 2, BitVec.ofNat 2 (nextCursor 4 c.toNat) = c - 1 := by decide
  exact hall s.cursor

theorem iterate_ticked_cursor (n : Nat) (s : State) : (State.ticked^[n] s).cursor + BitVec.ofNat 2 n = s.cursor := by
  induction n generalizing s with
  | zero => exact BitVec.add_zero _
  | succ n ih =>
    rw [Function.iterate_succ_apply, BitVec.ofNat_add, ← BitVec.add_assoc, ih, ticked_cursor]
    exact BitVec.sub_add_cancel ..

/-- Settles O30: each TICK takes 1 from the cursor modulo 4. -/
theorem cursorIsPeriodic : Obligations.CursorIsPeriodic := by
  refine fun n s ha hf hr hi => ⟨_, runN_idle_live ⟨ha, hf, hr⟩ hi n, ?_, ?_⟩
  · rw [← iterate_ticked_cursor n s, BitVec.toNat_add, BitVec.toNat_ofNat]
    omega
  · rintro rfl
    exact (BitVec.add_zero _).symm.trans (iterate_ticked_cursor 4 s)

/-- A TICK at a known cursor emits the sequence of that digit's position. -/
theorem ticked_events {s : State} {c : BitVec 2} (h : s.cursor = c) :
    s.ticked.events = s.events ++ tickEvents s.glyphs s.sdv.toNat c.toNat := by
  rw [← h]
  rfl

/-- Settles O31: the cursor runs 3, 2, 1, 0 and back to 3, and each TICK shows the digit it names. -/
theorem oneFrameShowsFourDigits : Obligations.OneFrameShowsFourDigits := by
  intro s ha hf hr hi hc
  have hdigit : ∀ k, s.sdv.toNat / 10 ^ k % 10 < 10 := fun k => Nat.mod_lt _ (by decide)
  have hc1 : s.ticked.cursor = 2 := by rw [ticked_cursor, hc]; rfl
  have hc2 : s.ticked.ticked.cursor = 1 := by rw [ticked_cursor, hc1]; rfl
  have hc3 : s.ticked.ticked.ticked.cursor = 0 := by rw [ticked_cursor, hc2]; rfl
  have hc4 : s.ticked.ticked.ticked.ticked.cursor = 3 := by rw [ticked_cursor, hc3]; rfl
  refine ⟨_, ⟨_, hdigit 3⟩, ⟨_, hdigit 2⟩, ⟨_, hdigit 1⟩, ⟨_, hdigit 0⟩, runN_idle_live ⟨ha, hf, hr⟩ hi 4, ?_, ?_,
    hc4, rfl⟩
  · change 1000 * (_ / 1000 % 10) + 100 * (_ / 100 % 10) + 10 * (_ / 10 % 10) + _ / 1 % 10 = _
    omega
  · change s.ticked.ticked.ticked.ticked.events = _
    rw [ticked_events hc3, ticked_events hc2, ticked_events hc1, ticked_events hc]
    rfl

/-! ## What a TICK shows depends on the digits only (41_scanner.md rule R78) -/

theorem div_pow_mod_ten_of_mod (v : Nat) {c : Nat} (hc : c < 4) : v % 10000 / 10 ^ c % 10 = v / 10 ^ c % 10 := by
  interval_cases c <;> omega

theorem tickEvents_mod (glyphs : Config.Glyphs) (v : Nat) {c : Nat} (hc : c < 4) :
    tickEvents glyphs (v % 10000) c = tickEvents glyphs v c := by
  rw [tickEvents, tickEvents, div_pow_mod_ten_of_mod v hc]

theorem replay_tickEvents_eq (l m : Latches) (glyphs : Config.Glyphs) (v c : Nat) :
    replay l (tickEvents glyphs v c) = replay m (tickEvents glyphs v c) := by
  rw [tickEvents, replay_sequence, replay_sequence]

/-- Settles O32: both TICKs emit the same events, which fix the latches whatever they were. -/
theorem valuesWrapOnTheDisplay : Obligations.ValuesWrapOnTheDisplay := by
  intro a b ta tb hc hg hv hta htb
  cases (exec_tick_ticked a).symm.trans hta
  cases (exec_tick_ticked b).symm.trans htb
  have hout : a.ticked.out = b.ticked.out := by
    change replay a.out (tickEvents _ _ _) = replay b.out (tickEvents _ _ _)
    rw [hv, ← hc, ← hg, tickEvents_mod _ _ a.cursor.isLt]
    exact replay_tickEvents_eq ..
  rw [hout, ticked_cursor, ticked_cursor, hc]
  exact ⟨rfl, rfl, rfl, rfl⟩

/-! ## Commands that neither disarm nor draw -/

/-- A command word that leaves the scanner as it is: it decodes to NOP, START or PUBLISH. -/
def Passive (x : Input) : Prop :=
  ∃ cmd i, x = .host cmd ∧ decodeHost cmd = .command i ∧ i ≠ .stop ∧ ∀ v t e, i ≠ .digit v t e

/-- What the next TICK takes from `s`, apart from the display value, and the event list are the same in `t`. -/
def SameScan (s t : State) : Prop := t.events = s.events ∧ t.cursor = s.cursor ∧ t.glyphs = s.glyphs

theorem SameScan.trans {s t u : State} (h : SameScan s t) (k : SameScan t u) : SameScan s u := by
  obtain ⟨he, hc, hg⟩ := h
  obtain ⟨ke, kc, kg⟩ := k
  exact ⟨ke.trans he, kc.trans hc, kg.trans hg⟩

theorem step_passive {s : State} {x : Input} {rest : List Input} (h : s.Live) (hi : s.inputs = x :: rest)
    (hx : Passive x) : ∃ t, step s = .next t ∧ t.Live ∧ t.inputs = rest ∧ SameScan s t := by
  obtain ⟨cmd, i, rfl, hd, hstop, hdigit⟩ := hx
  obtain ⟨hhost, hwf, -⟩ := encodeWord_of_decodeHost hd
  obtain ⟨t, ht, heffect⟩ := exec_next_effect i (s.consume rest)
  refine ⟨t, (step_host h.unmarked hi hd).trans ht, ?_⟩
  cases heffect with
  | nop => exact ⟨⟨h.armed, h.noFault, h.noRefusal⟩, rfl, rfl, rfl, rfl⟩
  | start hp => exact ⟨⟨rfl, h.noFault, h.noRefusal⟩, rfl, rfl, rfl, rfl⟩
  | publish v => exact ⟨⟨h.armed, h.noFault, h.noRefusal⟩, rfl, rfl, rfl, rfl⟩
  | startZero => cases hwf
  | encode d => cases hhost
  | tick => cases hhost
  | stop => exact absurd rfl hstop
  | digitFault ha => exact absurd rfl (hdigit _ _ _)
  | digitShown hs hes => exact absurd rfl (hdigit _ _ _)

theorem runN_passive {l more : List Input} (hl : ∀ x ∈ l, Passive x) {s : State} (h : s.Live)
    (hi : s.inputs = l ++ more) : ∃ t, runN l.length s = .next t ∧ t.Live ∧ t.inputs = more ∧ SameScan s t := by
  induction l generalizing s with
  | nil => exact ⟨s, rfl, h, hi, rfl, rfl, rfl⟩
  | cons x l ih =>
    obtain ⟨hx, hl⟩ := List.forall_mem_cons.1 hl
    obtain ⟨t, hst, ht, hti, hsame⟩ := step_passive h hi hx
    obtain ⟨u, htu, hu, hui, hsame'⟩ := ih hl ht hti
    exact ⟨u, (runN_succ_of_step hst _).trans htu, hu, hui, hsame.trans hsame'⟩

/-- Settles O11: the waiting commands are served one by one and leave TICK enabled. -/
theorem armedBlockEventuallyTicks : Obligations.ArmedBlockEventuallyTicks := by
  intro s ha hf hr hl
  obtain ⟨t, hrun, ht, hti, hevents, hcursor, hglyphs⟩ :=
    runN_passive hl ⟨ha, hf, hr⟩ (List.append_nil _).symm
  refine ⟨t, t.ticked, hrun, hti, hevents, hcursor, step_idle_live ht hti, exec_tick_ticked t, ?_⟩
  rw [ticked_events hcursor, hevents, hglyphs]

/-! ## The last PUBLISH wins (42_handoff.md rule R85) -/

theorem passive_publish (v : Value) : Passive (.host (encodeWord (.publish v))) :=
  ⟨_, _, rfl, decodeHost_encodeWord_publish v, nofun, nofun⟩

theorem step_publish {s : State} {v : Value} {rest : List Input} (h : s.Live)
    (hi : s.inputs = .host (encodeWord (.publish v)) :: rest) : step s = .next ((s.consume rest).handoffWrite v) :=
  step_host h.unmarked hi (decodeHost_encodeWord_publish v)

/-- Settles O37: the earlier PUBLISHes leave the scanner as it is, and the last one replaces the value whole. -/
theorem lastPublishWins : Obligations.LastPublishWins := by
  intro s earlier data rest ha hf hr hi
  obtain ⟨t, hrun, ht, hti, hevents, hcursor, hglyphs⟩ :=
    runN_passive (List.forall_mem_map.2 fun v _ => passive_publish v) ⟨ha, hf, hr⟩ hi
  rw [List.length_map] at hrun
  have hdata : ((t.consume (.scan :: rest)).handoffWrite data).sdv = data := sdv_handoffWrite ..
  have hlive : ((t.consume (.scan :: rest)).handoffWrite data).Live := ⟨ht.armed, ht.noFault, ht.noRefusal⟩
  refine ⟨(((t.consume (.scan :: rest)).handoffWrite data).consume rest).ticked, ?_, hdata, rfl, ?_⟩
  · rw [runN_add_of_run hrun, runN_succ_of_step (step_publish ht hti), runN_succ_of_step (step_scan_live hlive rfl)]
    rfl
  · change t.events ++ tickEvents t.glyphs ((t.consume (.scan :: rest)).handoffWrite data).sdv.toNat t.cursor.toNat = _
    rw [hdata, hevents, hglyphs, hcursor]

end Sys2Proof.Machine
end

section
/-! PROOFS. Runs of the disarmed block, and what the hand-off cell hides (70_reset_and_hazards.md, 42_handoff.md rule R84). -/

namespace Sys2Proof.Machine

/-! ## The display value as one register (42_handoff.md rule R84) -/

theorem State.sdv_congr {s t : State} (hb : t.bank = s.bank) (hp : t.pub = s.pub) : t.sdv = s.sdv := by
  simp only [State.sdv, hb, hp]

/-- The display value after a command word that decodes to `d`, by the single-register reading. -/
def valueAfter (v : Value) : Decoded → Value
  | .command (.publish data) => data
  | _ => v

theorem registerAfter_host (v : Value) (cmd : Word) :
    registerAfter v (some (.host cmd)) = valueAfter v (decodeHost cmd) := rfl

theorem exec_sdv {i : Instr} {s t : State} (h : exec i s = .next t) : t.sdv = valueAfter s.sdv (.command i) := by
  obtain ⟨-, -, -, -, hcell, -⟩ := onlyTheOwnersWrite i s t h
  have hkeep : (∀ d, i ≠ .publish d) → t.sdv = s.sdv := fun hi => by
    obtain ⟨hbank, hpub⟩ := hcell hi
    exact State.sdv_congr hbank hpub
  cases i with
  | publish data => cases h; exact sdv_handoffWrite s data
  | encode _ | nop | tick | digit _ _ _ | start _ | stop => exact hkeep nofun

/-- Settles O35: only PUBLISH and reset write the cell, and PUBLISH writes it whole. -/
theorem cellIsOneRegister : Obligations.CellIsOneRegister := by
  intro s t h
  rcases step_cases h with ⟨i, rest, -, ⟨cmd, hi, hd⟩, hx⟩ | ⟨r, cmd, rest, -, hi, hd, rfl⟩ | ⟨rest, -, -, hi, hx⟩ |
    ⟨rest, -, -, hi, rfl⟩ | ⟨d, rest, hi, rfl⟩ | ⟨rest, hi, rfl⟩ | ⟨-, -, hi, hx⟩ | ⟨-, -, hi, rfl⟩ <;>
    rw [hi, List.head?]
  · rw [registerAfter_host, hd]
    exact exec_sdv (s := s.consume rest) hx
  · rw [registerAfter_host, hd]
    rfl
  · exact exec_sdv (s := s.consume rest) hx
  · rfl
  · rfl
  · exact State.sdv_eq_zero_of_bank State.reset_bank
  · exact exec_sdv hx
  · rfl

/-! ## The stopped display (70_reset_and_hazards.md rules R107, R115, R119) -/

/-- The display of `t` is that of `s`. -/
def SameDisplay (s t : State) : Prop := t.out = s.out ∧ t.events = s.events ∧ t.cursor = s.cursor

theorem SameDisplay.trans {s t u : State} (h : SameDisplay s t) (k : SameDisplay t u) : SameDisplay s u := by
  obtain ⟨ho, he, hc⟩ := h
  obtain ⟨ko, ke, kc⟩ := k
  exact ⟨ko.trans ho, ke.trans he, kc.trans hc⟩

/-- A disarmed state with only quiet inputs waiting. -/
def Stopped (s : State) : Prop := s.scanEn = false ∧ quietInputs s.inputs

theorem exec_quiet {i : Instr} {s t : State} (h : exec i s = .next t) (ha : s.scanEn = false) (htick : i ≠ .tick)
    (hstart : ∀ p, i ≠ .start p) (hdigit : ∀ v g e, i ≠ .digit v g e) : SameDisplay s t ∧ t.scanEn = false := by
  obtain ⟨hcursor, hscan, -, hout, -⟩ := onlyTheOwnersWrite i s t h
  obtain ⟨hout, hevents⟩ := hout htick hdigit
  refine ⟨⟨hout, hevents, hcursor htick⟩, ?_⟩
  by_cases hstop : i = .stop
  · subst hstop
    cases h
    rfl
  · rw [hscan hstop hstart, ha]

theorem step_stopped {s t : State} (hs : Stopped s) (h : step s = .next t) : SameDisplay s t ∧ Stopped t := by
  obtain ⟨ha, hq⟩ := hs
  have hrest : ∀ {x rest}, s.inputs = x :: rest → quietInputs rest :=
    fun hi y hy => hq y (hi ▸ List.mem_cons_of_mem _ hy)
  rcases step_cases h with ⟨i, rest, -, ⟨cmd, hi, hd⟩, hx⟩ | ⟨r, cmd, rest, -, hi, hd, rfl⟩ | ⟨rest, -, hb, hi, hx⟩ |
    ⟨rest, -, -, hi, rfl⟩ | ⟨d, rest, hi, rfl⟩ | ⟨rest, hi, rfl⟩ | ⟨-, hb, hi, hx⟩ | ⟨-, -, hi, rfl⟩
  · obtain ⟨hhost, -, -⟩ := encodeWord_of_decodeHost hd
    obtain ⟨htick, -⟩ := Instr.isHostCommand_iff.1 hhost
    obtain ⟨-, hquiet⟩ := hq (.host cmd) (hi ▸ List.mem_cons_self)
    obtain ⟨hstart, hdigit⟩ := hquiet cmd rfl i hd
    obtain ⟨hsame, hb⟩ := exec_quiet (s := s.consume rest) hx ha htick hstart hdigit
    obtain ⟨-, -, -, -, -, -, -, -, -, hinputs⟩ := onlyTheOwnersWrite i _ t hx
    exact ⟨hsame, hb, by rw [hinputs]; exact hrest hi⟩
  · exact ⟨⟨rfl, rfl, rfl⟩, ha, hrest hi⟩
  · cases ha.symm.trans hb
  · exact ⟨⟨rfl, rfl, rfl⟩, ha, hrest hi⟩
  · exact ⟨⟨rfl, rfl, rfl⟩, ha, hrest hi⟩
  · exact absurd rfl (hq .reset (hi ▸ List.mem_cons_self)).1
  · cases ha.symm.trans hb
  · exact ⟨⟨rfl, rfl, rfl⟩, ha, hq⟩

/-- Settles O33: every step keeps the display and leaves a stopped state. -/
theorem stoppedDisplayHolds : Obligations.StoppedDisplayHolds := by
  intro n s t ha hq h
  suffices hrun : SameDisplay s t ∧ Stopped t by
    obtain ⟨⟨hout, hevents, hcursor⟩, hb, -⟩ := hrun
    exact ⟨hout, hevents, hcursor, hb⟩
  have hs : Stopped s := ⟨ha, hq⟩
  clear ha hq
  induction n generalizing s with
  | zero => cases h; exact ⟨⟨rfl, rfl, rfl⟩, hs⟩
  | succ n ih =>
    obtain ⟨u, hstep, hrun⟩ := step_of_runN_succ h
    obtain ⟨hsu, hu⟩ := step_stopped hs hstep
    obtain ⟨hut, ht⟩ := ih u hrun hu
    exact ⟨hsu.trans hut, ht⟩

/-- Settles O34: no command waits, so a step takes an expiry, answers a query, resets or idles. -/
theorem settledStateStaysSettled : Obligations.SettledStateStaysSettled := by
  rintro s t ⟨hhost, ha, hf, hr⟩ h
  have hrest : ∀ {x rest}, s.inputs = x :: rest → ∀ cmd, Input.host cmd ∉ rest :=
    fun hi cmd hmem => hhost cmd (hi ▸ List.mem_cons_of_mem _ hmem)
  rcases step_cases h with ⟨i, rest, -, ⟨cmd, hi, -⟩, -⟩ | ⟨r, cmd, rest, -, hi, -, -⟩ | ⟨rest, -, hb, -, -⟩ |
    ⟨rest, -, -, hi, rfl⟩ | ⟨d, rest, hi, rfl⟩ | ⟨rest, hi, rfl⟩ | ⟨-, hb, -, -⟩ | ⟨-, -, hi, rfl⟩
  · exact absurd (hi ▸ List.mem_cons_self) (hhost cmd)
  · exact absurd (hi ▸ List.mem_cons_self) (hhost cmd)
  · cases ha.symm.trans hb
  · exact ⟨⟨hrest hi, ha, hf, hr⟩, fun _ => ⟨rfl, rfl, rfl⟩⟩
  · exact ⟨⟨hrest hi, ha, hf, hr⟩, fun _ => ⟨rfl, rfl, rfl⟩⟩
  · exact ⟨⟨hrest hi, rfl, rfl, rfl⟩, fun hnr => absurd hi (hnr rest)⟩
  · cases ha.symm.trans hb
  · exact ⟨⟨hhost, ha, hf, hr⟩, fun _ => ⟨rfl, rfl, rfl⟩⟩

/-! ## What the cell hides (10_state.md rule R26) -/

/-- `s` with another pair of banks and another bank published. -/
def State.withCell (s : State) (bank : Vector Value 2) (pub : Fin 2) : State := { s with bank := bank, pub := pub }

section
variable {s : State} {bank : Vector Value 2} {pub : Fin 2}

theorem sameButBanks_iff {a b : State} :
    SameButBanks a b ↔ ∃ bank pub, b = a.withCell bank pub ∧ bank[pub] = a.sdv := by
  constructor
  · rintro ⟨hsdv, hb⟩
    exact ⟨b.bank, b.pub, hb.symm, hsdv.symm⟩
  · rintro ⟨bank, pub, rfl, hsdv⟩
    exact ⟨hsdv.symm, rfl⟩

theorem sameButBanks_withCell (h : bank[pub] = s.sdv) : SameButBanks s (s.withCell bank pub) := ⟨h.symm, rfl⟩

theorem ticked_withCell (h : bank[pub] = s.sdv) : (s.withCell bank pub).ticked = s.ticked.withCell bank pub := by
  have hsdv : (s.withCell bank pub).sdv = s.sdv := h
  rw [State.ticked, hsdv]
  rfl

theorem displaySeq_withCell (a : Agent) (op : Operation) (v : DigitIn) (g : Target) (e : Bool) :
    (s.withCell bank pub).displaySeq a op v g e = (s.displaySeq a op v g e).withCell bank pub := by
  by_cases hv : v.toNat ≤ 16
  · rw [displaySeq_inRange _ a op g e hv, displaySeq_inRange _ a op g e hv]
    rfl
  · have hv := Nat.lt_of_not_le hv
    rw [displaySeq_outOfRange _ a op g e hv, displaySeq_outOfRange _ a op g e hv]

/-- An instruction reads the cell as its display value only, and writes it whole. -/
theorem exec_withCell (i : Instr) (h : bank[pub] = s.sdv) :
    SameOutcome (exec i s) (exec i (s.withCell bank pub)) := by
  cases i with
  | encode d => exact sameButBanks_withCell (s := s.driveEncIn d) h
  | nop => exact sameButBanks_withCell h
  | tick =>
    rw [exec_tick_ticked, exec_tick_ticked, ticked_withCell h]
    exact sameButBanks_withCell (s := s.ticked) h
  | digit v g e =>
    cases ha : s.scanEn with
    | true =>
      rw [exec_digit_armed ha, exec_digit_armed (s := s.withCell bank pub) ha]
      exact sameButBanks_withCell (s := s.raiseFault _ _) h
    | false =>
      rw [exec_digit_disarmed ha, exec_digit_disarmed (s := s.withCell bank pub) ha, displaySeq_withCell]
      refine sameButBanks_withCell (h.trans ?_)
      obtain ⟨es, hseq, -⟩ := displaySeq_appends s .host .digit v g e
      rw [hseq]
      rfl
  | start p =>
    by_cases hp : p = 0
    · subst hp; exact sameButBanks_withCell (s := s.refuse _ _) h
    · rw [exec_start hp, exec_start hp]
      exact sameButBanks_withCell (s := s.arm p) h
  | stop => exact sameButBanks_withCell (s := s.disarm) h
  | publish data => exact ⟨by rw [sdv_handoffWrite, sdv_handoffWrite], rfl⟩

theorem SameButBanks.refl (s : State) : SameButBanks s s := ⟨rfl, rfl⟩

theorem stopOutcome_withCell (h : bank[pub] = s.sdv) :
    SameOutcome (stopOutcome s) (stopOutcome (s.withCell bank pub)) := by
  have hf : (s.withCell bank pub).fault = s.fault := rfl
  have hr : (s.withCell bank pub).refused = s.refused := rfl
  rw [stopOutcome, stopOutcome, hf, hr]
  split
  · rfl
  · rfl
  · exact sameButBanks_withCell h

/-- What a step makes of what the scheduler found. -/
def Fetched.answer : Fetched → Host.Outcome State Fault Refusal
  | .run i s => exec i s
  | .done o => o

theorem step_eq_answer (s : State) : step s = (fetch s).answer := rfl

theorem whenLive_withCell (h : bank[pub] = s.sdv) {k l : Fetched} (hkl : SameOutcome k.answer l.answer) :
    SameOutcome (whenLive s k).answer (whenLive (s.withCell bank pub) l).answer := by
  have hm : (s.withCell bank pub).marked = s.marked := rfl
  rw [whenLive, whenLive, hm]
  split
  · exact stopOutcome_withCell h
  · exact hkl

theorem hostWord_withCell (cmd : Word) (h : bank[pub] = s.sdv) :
    SameOutcome (hostWord cmd s).answer (hostWord cmd (s.withCell bank pub)).answer := by
  unfold hostWord
  split
  · exact exec_withCell _ h
  · exact sameButBanks_withCell (s := s.refuse _ cmd) h

theorem scanExpiry_withCell (h : bank[pub] = s.sdv) :
    SameOutcome (scanExpiry s).answer (scanExpiry (s.withCell bank pub)).answer := by
  have ha : (s.withCell bank pub).scanEn = s.scanEn := rfl
  rw [scanExpiry, scanExpiry, ha]
  split
  · exact exec_withCell .tick h
  · exact sameButBanks_withCell h

theorem idlePort_withCell (h : bank[pub] = s.sdv) :
    SameOutcome (idlePort s).answer (idlePort (s.withCell bank pub)).answer := by
  have ha : (s.withCell bank pub).scanEn = s.scanEn := rfl
  rw [idlePort, idlePort, ha]
  split
  · exact exec_withCell .tick h
  · exact exec_withCell .nop h

theorem step_withCell (h : bank[pub] = s.sdv) : SameOutcome (step s) (step (s.withCell bank pub)) := by
  have hi : (s.withCell bank pub).inputs = s.inputs := rfl
  rw [step_eq_answer, step_eq_answer, fetch, fetch, hi]
  split
  · exact whenLive_withCell h (idlePort_withCell h)
  · next cmd rest _ => exact whenLive_withCell h (hostWord_withCell (s := s.consume rest) cmd h)
  · next rest _ => exact whenLive_withCell h (scanExpiry_withCell (s := s.consume rest) h)
  · next d rest _ => exact exec_withCell (s := s.consume rest) (.encode d) h
  · exact SameButBanks.refl _

end

theorem SameButBanks.step_sameOutcome {a b : State} (h : SameButBanks a b) : SameOutcome (step a) (step b) := by
  obtain ⟨bank, pub, rfl, hsdv⟩ := sameButBanks_iff.1 h
  exact step_withCell hsdv

/-- Settles O36: related states step alike, so they run alike. -/
theorem backBankIsUnobservable : Obligations.BackBankIsUnobservable := by
  intro n a b h
  induction n generalizing a b with
  | zero => exact h
  | succ n ih =>
    have hstep := h.step_sameOutcome
    rw [runN, runN]
    generalize step a = oa, step b = ob at hstep
    cases oa with
    | next u => cases ob with
      | next v => exact ih u v hstep
      | fault r => exact hstep.elim
      | refused r => exact hstep.elim
    | fault q => cases ob with
      | next v => exact hstep.elim
      | fault r => exact hstep
      | refused r => exact hstep.elim
    | refused q => cases ob with
      | next v => exact hstep.elim
      | fault r => exact hstep.elim
      | refused r => exact hstep

end Sys2Proof.Machine
end
